-- ==== Sys2Proof/Word.lean ====
section
/-! DEFINITION. The word types of the engine, named as the spec names what they carry. -/

namespace Sys2Proof

/-- A key pattern `bits64(key)` (00_scope.md R11, 30_encoding.md R313), a table entry or a register. -/
abbrev Word64 := BitVec 64

/-- A position, capacity or counter field (00_scope.md R7, 30_encoding.md R314). -/
abbrev Word32 := BitVec 32

/-- A threshold: unsigned fixed point with 16 fraction bits (30_encoding.md R310). -/
abbrev Threshold := BitVec 17

/-- A table-entry index `t[2:0] ++ v[7:0]` (30_encoding.md R312). -/
abbrev TableIndex := BitVec 11

/-- A command word `cmd_op ++ cmd_key` (30_encoding.md R303). -/
abbrev CmdWord := BitVec 66

/-- A register request word `reg_we ++ reg_addr ++ reg_wdata` (30_encoding.md R308). -/
abbrev RegWord := BitVec 73

/-- A word as it arrives: the port tells a command from a register transaction
(30_encoding.md R317). -/
inductive PortWord where
  | cmd (w : CmdWord)
  | reg (w : RegWord)
  deriving DecidableEq, Repr

end Sys2Proof
end

