-- ==== Sys2Proof/Syntax.lean ====
section
/-! DEFINITION. The operations of the engine: one constructor for each row of
spec/opcode_table.json (30_encoding.md R315). A mnemonic that the table spreads over several rows
(WR_CFG, WR_REFUSED) has one constructor a row; an operand holds exactly the bits the row leaves
free. -/

namespace Sys2Proof

/-- One operation. CMD rows carry the 64-bit key; REG rows carry WDATA (ignored by RD and by the
WR_REFUSED rows, log entry 16); internal rows carry the operands their rule lists. -/
inductive Instr where
  /-- INSERT, OP = 0b00 (42_commands.md R601). -/
  | insert (key : Word64)
  /-- LOOKUP, OP = 0b01 (42_commands.md R602). -/
  | lookup (key : Word64)
  /-- REMOVE, OP = 0b10 (42_commands.md R603). -/
  | remove (key : Word64)
  /-- CMD_RESERVED, OP = 0b11 (42_commands.md R604). -/
  | cmdReserved (key : Word64)
  /-- RD, WE = 0, any ADDR (44_register_ops.md R801). -/
  | rd (addr : BitVec 8) (wdata : Word64)
  /-- WR_CFG at 0x04, INIT_CAPACITY (44_register_ops.md R802). -/
  | wrInitCapacity (wdata : Word64)
  /-- WR_CFG at 0x05, GROW_THR (44_register_ops.md R802). -/
  | wrGrowThr (wdata : Word64)
  /-- WR_CFG at 0x06, SHRINK_THR (44_register_ops.md R802). -/
  | wrShrinkThr (wdata : Word64)
  /-- WR_CFG at 0x0B, HT_INDEX (44_register_ops.md R802). -/
  | wrHtIndex (wdata : Word64)
  /-- WR_HT_DATA at 0x0C (44_register_ops.md R803). -/
  | wrHtData (wdata : Word64)
  /-- WR_CTRL at 0x00 with a value other than 1, 2 and 4 (44_register_ops.md R804). -/
  | wrCtrl (wdata : Word64)
  /-- START, CTRL = 0x1 (44_register_ops.md R805). -/
  | start
  /-- SOFT_RESET, CTRL = 0x2 (44_register_ops.md R806). -/
  | softReset
  /-- COMPACT_NOW, CTRL = 0x4 (44_register_ops.md R807). -/
  | compactNow
  /-- WR_SLOT_INDEX at 0x0D (44_register_ops.md R808). -/
  | wrSlotIndex (wdata : Word64)
  /-- WR_REFUSED at 0x01 (44_register_ops.md R809, as are the nine rows below). -/
  | wrRefused01 (wdata : Word64)
  /-- WR_REFUSED at 0x02..0x03, `low` = ADDR[0]. -/
  | wrRefused02 (low : BitVec 1) (wdata : Word64)
  /-- WR_REFUSED at 0x07. -/
  | wrRefused07 (wdata : Word64)
  /-- WR_REFUSED at 0x08..0x09, `low` = ADDR[0]. -/
  | wrRefused08 (low : BitVec 1) (wdata : Word64)
  /-- WR_REFUSED at 0x0A. -/
  | wrRefused0A (wdata : Word64)
  /-- WR_REFUSED at 0x0E..0x0F, `low` = ADDR[0]. -/
  | wrRefused0E (low : BitVec 1) (wdata : Word64)
  /-- WR_REFUSED at 0x10..0x1F, `low` = ADDR[3:0]. -/
  | wrRefused10 (low : BitVec 4) (wdata : Word64)
  /-- WR_REFUSED at 0x20..0x3F, `low` = ADDR[4:0]. -/
  | wrRefused20 (low : BitVec 5) (wdata : Word64)
  /-- WR_REFUSED at 0x40..0x7F, `low` = ADDR[5:0]. -/
  | wrRefused40 (low : BitVec 6) (wdata : Word64)
  /-- WR_REFUSED at 0x80..0xFF, `low` = ADDR[6:0]. -/
  | wrRefused80 (low : BitVec 7) (wdata : Word64)
  /-- HASH, internal (40_hash_engine.md R404). -/
  | hash (key : Word64)
  /-- PROBE_FREE, internal: bank, home index, capacity (41_probe_cam.md R503). -/
  | probeFree (bank : BitVec 1) (home cap : Word32)
  /-- PROBE_KEY, internal: home index, capacity, key (41_probe_cam.md R504). -/
  | probeKey (home cap : Word32) (key : Word64)
  /-- GROW, internal (43_sequencer.md R703). -/
  | grow
  /-- SHRINK, internal (43_sequencer.md R704). -/
  | shrink
  /-- REBUILD, internal: the new capacity (43_sequencer.md R707). -/
  | rebuild (newCap : Word32)
  /-- COMPACT, internal (43_sequencer.md R710). -/
  | compact
  deriving DecidableEq, Repr

end Sys2Proof
end

