-- ==== Sys2Proof/WellFormed.lean ====
section
/-! DEFINITION. Which terms of Instr are operations of the engine. -/

namespace Sys2Proof

/-- The three CTRL values that select a row of their own (44_register_ops.md R804 and the WR_CTRL
row of the opcode table: "any value except 0x1, 0x2, 0x4"). -/
def isCtrlAction (wdata : Word64) : Bool := wdata == 1 || wdata == 2 || wdata == 4

/-- The largest capacity any build can have (00_scope.md R8). -/
def capacityLimit : Nat := 2 ^ 31

/-- A capacity operand some build admits: 1..2^31 (00_scope.md R8). -/
def isCapacity (c : Word32) : Bool := 1 ≤ c.toNat && c.toNat ≤ capacityLimit

/-- The terms that stand for an operation. Only WR_CTRL, the probes and REBUILD restrict their
operands: R804; 41_probe_cam.md R501 (`1 <= C`, `home < C`); 43_sequencer.md R707 (`1 <= N`). -/
def Instr.wellFormed : Instr → Bool
  | .wrCtrl d => !isCtrlAction d
  | .probeFree _ home cap => isCapacity cap && home.toNat < cap.toNat
  | .probeKey home cap _ => isCapacity cap && home.toNat < cap.toNat
  | .rebuild n => isCapacity n
  | .insert _ | .lookup _ | .remove _ | .cmdReserved _ => true
  | .rd _ _ => true
  | .wrInitCapacity _ | .wrGrowThr _ | .wrShrinkThr _ | .wrHtIndex _ | .wrHtData _ => true
  | .start | .softReset | .compactNow | .wrSlotIndex _ => true
  | .wrRefused01 _ | .wrRefused02 _ _ | .wrRefused07 _ | .wrRefused08 _ _ => true
  | .wrRefused0A _ | .wrRefused0E _ _ | .wrRefused10 _ _ | .wrRefused20 _ _ => true
  | .wrRefused40 _ _ | .wrRefused80 _ _ => true
  | .hash _ | .grow | .shrink | .compact => true

end Sys2Proof
end

