-- ==== Sys2Proof/Decode.lean ====
section
/-! DEFINITION. Decoding of the command word and of the register request word
(30_encoding.md R303, R308, R315, R316), total on every word, and the encoder after it. -/

namespace Sys2Proof

/-- Why a numbered word is no word of a port (30_encoding.md R317). -/
inductive DecodeError where
  /-- no port takes a word of that length: a command is 66 bits, a register request 73 -/
  | noPortOfThisWidth
  /-- a bit above the port's width is set -/
  | bitsAboveThePort
  deriving DecidableEq, Repr

/-! ### Command port -/

/-- The operation of a command word: OP is CW[65:64], KEY is CW[63:0] (30_encoding.md R303).
Every word decodes; OP = 0b11 is the reserved command, not a trap (R316). -/
def decodeCmd (w : CmdWord) : Instr :=
  let key : Word64 := w.extractLsb' 0 64
  match (w.extractLsb' 64 2).toNat with
  | 0 => .insert key
  | 1 => .lookup key
  | 2 => .remove key
  | _ => .cmdReserved key

/-! ### Register port -/

/-- A CTRL write (ADDR = 0x00) by its data: the three action values have rows of their own, which
take precedence over WR_CTRL (44_register_ops.md R804). -/
def decodeCtrl (d : Word64) : Instr :=
  if d = 1 then .start
  else if d = 2 then .softReset
  else if d = 4 then .compactNow
  else .wrCtrl d

/-- A write by its index (30_encoding.md R315). The indices 0x00 to 0x0F each by number, those from
0x10 on by the blocks of the opcode table's WR_REFUSED rows. -/
def decodeWrite (a : BitVec 8) (d : Word64) : Instr :=
  match a.toNat with
  | 0x00 => decodeCtrl d
  | 0x01 => .wrRefused01 d
  | 0x02 => .wrRefused02 0 d
  | 0x03 => .wrRefused02 1 d
  | 0x04 => .wrInitCapacity d
  | 0x05 => .wrGrowThr d
  | 0x06 => .wrShrinkThr d
  | 0x07 => .wrRefused07 d
  | 0x08 => .wrRefused08 0 d
  | 0x09 => .wrRefused08 1 d
  | 0x0A => .wrRefused0A d
  | 0x0B => .wrHtIndex d
  | 0x0C => .wrHtData d
  | 0x0D => .wrSlotIndex d
  | 0x0E => .wrRefused0E 0 d
  | 0x0F => .wrRefused0E 1 d
  | n =>
    if n < 0x20 then .wrRefused10 (a.extractLsb' 0 4) d
    else if n < 0x40 then .wrRefused20 (a.extractLsb' 0 5) d
    else if n < 0x80 then .wrRefused40 (a.extractLsb' 0 6) d
    else .wrRefused80 (a.extractLsb' 0 7) d

/-- The operation of a register request word: WE is RW[72], ADDR is RW[71:64], WDATA is RW[63:0]
(30_encoding.md R308). Every word decodes (44_register_ops.md R800). -/
def decodeReg (w : RegWord) : Instr :=
  let a : BitVec 8 := w.extractLsb' 64 8
  let d : Word64 := w.extractLsb' 0 64
  if w.getLsbD 72 then decodeWrite a d else .rd a d

/-- "A decoder tells a command from a register transaction by the port it arrives on"
(30_encoding.md R317). -/
def decode : PortWord → Instr
  | .cmd w => decodeCmd w
  | .reg w => decodeReg w

/-! ### Words given by a number of bits and a number -/

/-- The port word that `nbits` bits of value `w` make, bit 0 the least significant. A command's
66 bits fill up to 9 bytes, a register request's 73 bits up to 10 (log entry 15). -/
def portWordOf (nbits w : Nat) : Except DecodeError PortWord :=
  if 66 ≤ nbits ∧ nbits ≤ 72 then
    if w < 2 ^ 66 then .ok (.cmd (BitVec.ofNat 66 w)) else .error .bitsAboveThePort
  else if 73 ≤ nbits ∧ nbits ≤ 80 then
    if w < 2 ^ 73 then .ok (.reg (BitVec.ofNat 73 w)) else .error .bitsAboveThePort
  else .error .noPortOfThisWidth

/-- The decoder on a numbered word, rejecting by name. -/
def decodeNumbered (nbits w : Nat) : Except DecodeError Instr :=
  match portWordOf nbits w with
  | .ok pw => .ok (decode pw)
  | .error e => .error e

/-- The instruction the decoder reads from an instruction of the opcode table whose bits are `w`,
or none. The internal operations have no words (30_encoding.md R315). -/
def decodeTableWord (nbits w : Nat) : Option Instr :=
  match decodeNumbered nbits w with
  | .ok i => some i
  | .error _ => none

/-! ### The encoder -/

/-- `CW = cmd_op ++ cmd_key` (30_encoding.md R303). -/
def cmdWord (op : BitVec 2) (key : Word64) : CmdWord := op ++ key

/-- `RW = reg_we ++ reg_addr ++ reg_wdata` (30_encoding.md R308). -/
def regWord (we : Bool) (addr : BitVec 8) (wdata : Word64) : RegWord :=
  (BitVec.ofBool we ++ addr) ++ wdata

/-- The word of an operation; none for an internal operation, which has no host encoding
(30_encoding.md R315). -/
def encode : Instr → Option PortWord
  | .insert k => some (.cmd (cmdWord 0b00 k))
  | .lookup k => some (.cmd (cmdWord 0b01 k))
  | .remove k => some (.cmd (cmdWord 0b10 k))
  | .cmdReserved k => some (.cmd (cmdWord 0b11 k))
  | .rd a d => some (.reg (regWord false a d))
  | .wrInitCapacity d => some (.reg (regWord true 0x04 d))
  | .wrGrowThr d => some (.reg (regWord true 0x05 d))
  | .wrShrinkThr d => some (.reg (regWord true 0x06 d))
  | .wrHtIndex d => some (.reg (regWord true 0x0B d))
  | .wrHtData d => some (.reg (regWord true 0x0C d))
  | .wrCtrl d => some (.reg (regWord true 0x00 d))
  | .start => some (.reg (regWord true 0x00 1))
  | .softReset => some (.reg (regWord true 0x00 2))
  | .compactNow => some (.reg (regWord true 0x00 4))
  | .wrSlotIndex d => some (.reg (regWord true 0x0D d))
  | .wrRefused01 d => some (.reg (regWord true 0x01 d))
  | .wrRefused02 l d => some (.reg (regWord true ((0b0000001 : BitVec 7) ++ l) d))
  | .wrRefused07 d => some (.reg (regWord true 0x07 d))
  | .wrRefused08 l d => some (.reg (regWord true ((0b0000100 : BitVec 7) ++ l) d))
  | .wrRefused0A d => some (.reg (regWord true 0x0A d))
  | .wrRefused0E l d => some (.reg (regWord true ((0b0000111 : BitVec 7) ++ l) d))
  | .wrRefused10 l d => some (.reg (regWord true ((0b0001 : BitVec 4) ++ l) d))
  | .wrRefused20 l d => some (.reg (regWord true ((0b001 : BitVec 3) ++ l) d))
  | .wrRefused40 l d => some (.reg (regWord true ((0b01 : BitVec 2) ++ l) d))
  | .wrRefused80 l d => some (.reg (regWord true ((0b1 : BitVec 1) ++ l) d))
  | .hash _ | .probeFree _ _ _ | .probeKey _ _ _ => none
  | .grow | .shrink | .rebuild _ | .compact => none

/-- The mnemonic of the opcode table's row. -/
def Instr.mnemonic : Instr → String
  | .insert _ => "INSERT"
  | .lookup _ => "LOOKUP"
  | .remove _ => "REMOVE"
  | .cmdReserved _ => "CMD_RESERVED"
  | .rd _ _ => "RD"
  | .wrInitCapacity _ | .wrGrowThr _ | .wrShrinkThr _ | .wrHtIndex _ => "WR_CFG"
  | .wrHtData _ => "WR_HT_DATA"
  | .wrCtrl _ => "WR_CTRL"
  | .start => "START"
  | .softReset => "SOFT_RESET"
  | .compactNow => "COMPACT_NOW"
  | .wrSlotIndex _ => "WR_SLOT_INDEX"
  | .wrRefused01 _ | .wrRefused02 _ _ | .wrRefused07 _ | .wrRefused08 _ _ => "WR_REFUSED"
  | .wrRefused0A _ | .wrRefused0E _ _ | .wrRefused10 _ _ | .wrRefused20 _ _ => "WR_REFUSED"
  | .wrRefused40 _ _ | .wrRefused80 _ _ => "WR_REFUSED"
  | .hash _ => "HASH"
  | .probeFree _ _ _ => "PROBE_FREE"
  | .probeKey _ _ _ => "PROBE_KEY"
  | .grow => "GROW"
  | .shrink => "SHRINK"
  | .rebuild _ => "REBUILD"
  | .compact => "COMPACT"

end Sys2Proof
end

