-- ==== Sys2Proof/Machine/Types.lean ====
section
/-! DEFINITION. The data the engine holds and moves: modes, fault causes, slots, response records,
register replies, port samples and the hidden datapath registers. Plain data, no behaviour. -/

namespace Sys2Proof.Machine

/-- MODE (10_state.md R102). The value 3 is never held, so it has no name. -/
inductive Mode where
  | config
  | run
  | fault
  deriving DecidableEq, Repr, Inhabited

/-- FAULT_CAUSE (60_exceptions.md R900). Codes 4..15 are never produced, so they have no name. -/
inductive Cause where
  | none
  | probeFull
  | growOverflow
  | shrinkOverflow
  deriving DecidableEq, Repr, Inhabited

/-- A slot value (00_scope.md R14). -/
inductive Slot where
  | empty
  | occupied (key : Word64)
  | tombstone
  deriving DecidableEq, Repr, Inhabited

/-- The status code of a response (30_encoding.md R305). 0b11 is never produced. -/
inductive Status where
  | ok
  | notFound
  | illegal
  deriving DecidableEq, Repr, Inhabited

/-- The three structural-event bits (30_encoding.md R305). -/
structure Events where
  compact : Bool
  shrink : Bool
  grow : Bool
  deriving DecidableEq, Repr, Inhabited

/-- A response record (30_encoding.md R306). The reserved bit 7 is always 0 and is not held. -/
structure Response where
  op : BitVec 2
  status : Status
  ev : Events
  pos : Word32
  home : Word32
  capAfter : Word32
  hash : Word64
  key : Word64
  deriving DecidableEq, Repr, Inhabited

/-- What a completed register transaction answers: reg_rdata and reg_err (30_encoding.md R309). -/
structure Reply where
  rdata : Word64
  err : Bool
  deriving DecidableEq, Repr, Inhabited

/-- What the host drives at one rising edge of clk (30_encoding.md R300): rst; the command port,
cmd_valid with cmd_op ++ cmd_key; the register port, reg_req with reg_we ++ reg_addr ++ reg_wdata;
rsp_ready. -/
structure PortIn where
  rst : Bool
  cmd : Option CmdWord
  reg : Option RegWord
  rspReady : Bool
  deriving DecidableEq, Repr, Inhabited

/-- Every output port of 30_encoding.md R300. `reg_rdata` and `reg_err` are valid only while
reg_ack = 1, so they are held together with it; which edge they belong to: log entry 25. -/
structure PortOut where
  cmdReady : Bool
  rspValid : Bool
  rspData : BitVec 232
  regReply : Option Reply
  busy : Bool
  fault : Bool
  deriving DecidableEq, Repr

/-- The states of `hashtable_control_fsm` (43_sequencer.md R720). -/
inductive FsmState where
  | idle
  | hash
  | probe
  | write
  | check
  | compactScan
  | compactShift
  | rbClear
  | rbScan
  | rbPlace
  | rbCommit
  | initClear
  | respond
  deriving DecidableEq, Repr, Inhabited

/-- The hidden datapath registers (10_state.md R114, 41_probe_cam.md R502, 30_encoding.md R320 and
R321). -/
structure Datapath where
  /-- FSM state (43_sequencer.md R720) -/
  fsm : FsmState
  /-- a CTRL action runs, not a command -/
  ctrl : Bool
  /-- the command's op -/
  op : BitVec 2
  /-- the command's key -/
  key : Word64
  /-- the hash value, output `hv` of the hash sub-block -/
  hash : Word64
  /-- the home index -/
  home : Word32
  /-- OFF, the probe-offset counter, output `pc_off` -/
  off : Word32
  /-- P, the probe position register -/
  pos : Word32
  /-- the found position: outputs `pc_hit` and `pc_pos` -/
  found : Option Word32
  /-- the event bits gathered so far -/
  ev : Events
  /-- compaction scan index `i` -/
  scan : Word32
  /-- compaction run start, none for NONE -/
  runStart : Option Word32
  /-- compaction shift index `j` -/
  shift : Word32
  /-- the rebuild's new capacity N -/
  newCap : Word32
  /-- the clear index and the old-array scan index -/
  index : Word32
  /-- the key a rebuild is placing -/
  placeKey : Word64
  deriving DecidableEq, Repr, Inhabited

end Sys2Proof.Machine
end

