-- ==== Sys2Proof/Config.lean ====
section
/-! DEFINITION. What a build of the engine fixes, and the free values: constants without a body,
so that nothing can be proved about which value they have. -/

namespace Sys2Proof

/-- CLEAN_THR, hardwired 0.25 (10_state.md R104, R128). -/
def Config.cleanThr : Threshold := 0x4000

/-- CAP_MAX - 1 of the build. CAP_MAX is "an integer with 1 <= CAP_MAX <= 2^31 ...; no value is
assumed" (00_scope.md R8), and 31 bits plus one are exactly those integers. Log entry 2. -/
opaque Config.capMaxPred : BitVec 31

/-- P_LOOKUP_EMPTY_STOP of the build (00_scope.md R9). Log entry 2. -/
opaque Config.lookupEmptyStop : Bool

/-- FREE VALUE: what the `n`-th use finds in a lookup-table entry whose HTW bit is 0 (10_state.md
R133, 93_implementation_defined.md I4: "any value"). Log entry 3. -/
opaque Config.unwrittenEntry : Nat → TableIndex → Word64

/-- FREE VALUE: the RSP register after the `n`-th SOFT_RESET or hardware reset, "unspecified"
(10_state.md R140). Log entry 5. -/
opaque Config.unspecifiedRsp : Nat → Machine.Response

/-- FREE VALUE: whether, at one edge with both, a response hand-over takes effect before the
register transaction; 20_memory.md R210 orders them but names no order. Log entry 9. -/
opaque Config.handOverFirst : Nat → Bool

end Sys2Proof
end

