-- ==== Sys2Proof/Machine/State.lean ====
section
/-! DEFINITION. The state of the engine: every element of 10_state.md, the hidden registers of its
R114, the build parameters, and the model's own two fields. -/

namespace Sys2Proof.Machine

/-- A storage: (index, value) pairs, indices strictly rising, no pair that holds what an unlisted
index holds. 20_memory.md R200. -/
abbrev Memory (α : Type) := List (Nat × α)

/-- The machine stops: closed list of the reasons. None of them is a fault of the spec (those are
FAULT mode, a next state); each is raised only where a premise of the spec's own rules fails. -/
inductive Fault where
  /-- Raised by a command, COMPACT_NOW, GROW, SHRINK, REBUILD, COMPACT or a micro-step when CAPACITY
  is not in 1..CAP_MAX, which 42_commands.md R600 and 10_state.md R110 exclude. Safe: no run
  reaches it, and nothing is claimed beyond it. Log entry 12. -/
  | capacityOutOfRange
  /-- Raised by PROBE_FREE, PROBE_KEY or REBUILD run on its own with a capacity outside 1..CAP_MAX
  or a home index at or above it (41_probe_cam.md R501, 43_sequencer.md R707). Safe. Log entry 12. -/
  | operandOutOfRange
  /-- Raised by a read of SLOT_TAG or SLOT_KEY whose slot index is below CAPACITY but at or above
  CAP_MAX: no such slot exists (10_state.md R108). Safe: no run reaches it. Log entry 12. -/
  | slotOutOfBank
  deriving DecidableEq, Repr

/-- The step has no meaning for the instruction. -/
inductive Refusal where
  /-- Raised by exec for an instruction without a meaning: no instruction of this model. Safe. -/
  | notModelled (mnemonic : String)
  deriving DecidableEq, Repr

/-- The state of the engine. -/
structure State where
  /-- MODE (10_state.md R102) -/
  mode : Mode
  /-- INIT_CAPACITY (10_state.md R103) -/
  initCapacity : Word32
  /-- GROW_THR (10_state.md R103) -/
  growThr : Threshold
  /-- SHRINK_THR (10_state.md R103) -/
  shrinkThr : Threshold
  /-- CAPACITY (10_state.md R105) -/
  capacity : Word32
  /-- FILLED (10_state.md R105) -/
  filled : Word32
  /-- REMOVED (10_state.md R105) -/
  removed : Word32
  /-- HT by linear index t*256 + v; an unlisted entry holds 0 (10_state.md R106) -/
  ht : Memory Word64
  /-- HTW, bit t*256 + v for entry HT[t][v] (10_state.md R107) -/
  htw : BitVec 2048
  /-- BANK[0]; an unlisted slot is Empty (10_state.md R108) -/
  bank0 : Memory Slot
  /-- BANK[1]; an unlisted slot is Empty (10_state.md R108) -/
  bank1 : Memory Slot
  /-- ACTIVE (10_state.md R108) -/
  active : BitVec 1
  /-- RSP_PENDING (10_state.md R111) -/
  rspPending : Bool
  /-- RSP (10_state.md R111) -/
  rsp : Response
  /-- FAULT_CAUSE (10_state.md R112) -/
  faultCause : Cause
  /-- FAULT_OP (10_state.md R112) -/
  faultOp : BitVec 2
  /-- FAULT_KEY (10_state.md R112) -/
  faultKey : Word64
  /-- HT_INDEX (10_state.md R113) -/
  htIndex : TableIndex
  /-- SLOT_INDEX (10_state.md R113) -/
  slotIndex : Word32
  /-- the hidden datapath registers (10_state.md R114) -/
  dp : Datapath
  /-- the register port's answer: some while reg_ack = 1 (30_encoding.md R309) -/
  reply : Option Reply
  /-- CAP_MAX of this build (00_scope.md R8) -/
  capMax : Nat
  /-- P_LOOKUP_EMPTY_STOP of this build (00_scope.md R9) -/
  lookupEmptyStop : Bool
  /-- MODEL's own: what the host drives at the coming edges, all low when the list ends -/
  inputs : List PortIn
  /-- MODEL's own: numbers the uses of free values -/
  freeCtr : Nat
  deriving DecidableEq, Repr

/-- No event. -/
def Events.none : Events := ⟨false, false, false⟩

/-- The all-zero record: what RSP holds at reset in the model (DESIGN CHOICE, log entry 5). -/
def Response.zero : Response := ⟨0, .ok, Events.none, 0, 0, 0, 0, 0⟩

/-- The datapath with "none held (FSM idle)" (10_state.md R140); the registers read 0
(DESIGN CHOICE, log entry 6). -/
def Datapath.idle : Datapath :=
  { fsm := .idle, ctrl := false, op := 0, key := 0, hash := 0, home := 0, off := 0, pos := 0,
    found := Option.none, ev := Events.none, scan := 0, runStart := Option.none, shift := 0,
    newCap := 0, index := 0, placeKey := 0 }

/-- The machine right after hardware reset (10_state.md R140, 70_reset_and_hazards.md R1000), with
the build parameters unknown. -/
def State.reset : State :=
  { mode := .config, initCapacity := 0, growThr := 49152, shrinkThr := 16384,
    capacity := 0, filled := 0, removed := 0,
    ht := [], htw := 0, bank0 := [], bank1 := [], active := 0,
    rspPending := false, rsp := Response.zero,
    faultCause := .none, faultOp := 0, faultKey := 0,
    htIndex := 0, slotIndex := 0,
    dp := Datapath.idle, reply := Option.none,
    capMax := Config.capMaxPred.toNat + 1, lookupEmptyStop := Config.lookupEmptyStop,
    inputs := [], freeCtr := 0 }

end Sys2Proof.Machine
end

