-- ==== Sys2Proof/Machine/Operands.lean ====
section
/-! DEFINITION. Operand forms: the codes of the named values, slot and response packing, key bytes
and table indices (30_encoding.md R303 to R314, 40_hash_engine.md R402). -/

namespace Sys2Proof.Machine

/-- MODE as the two bits a register shows (10_state.md R102). -/
def Mode.code : Mode → BitVec 2
  | .config => 0
  | .run => 1
  | .fault => 2

/-- FAULT_CAUSE as four bits (60_exceptions.md R900). -/
def Cause.code : Cause → BitVec 4
  | .none => 0
  | .probeFull => 1
  | .growOverflow => 2
  | .shrinkOverflow => 3

/-- STATUS of a response as two bits (30_encoding.md R305). -/
def Status.code : Status → BitVec 2
  | .ok => 0b00
  | .notFound => 0b01
  | .illegal => 0b10

/-! ### Slots -/

/-- TAG of a slot (30_encoding.md R311). -/
def Slot.tag : Slot → BitVec 2
  | .empty => 0b00
  | .occupied _ => 0b01
  | .tombstone => 0b10

/-- KEYF of a slot: the key, 0 when the slot holds none (30_encoding.md R311). -/
def Slot.keyf : Slot → Word64
  | .empty => 0
  | .occupied k => k
  | .tombstone => 0

/-- The stored form `TAG[1:0] ++ KEYF[63:0]` (30_encoding.md R311). -/
def Slot.bits (s : Slot) : BitVec 66 := s.tag ++ s.keyf

/-- `isEmpty(s)` (41_probe_cam.md R500). -/
def Slot.isEmpty : Slot → Bool
  | .empty => true
  | .occupied _ => false
  | .tombstone => false

/-- `isTomb(s)` (41_probe_cam.md R500). -/
def Slot.isTomb : Slot → Bool
  | .empty => false
  | .occupied _ => false
  | .tombstone => true

/-- The slot holds some key. -/
def Slot.isOccupied : Slot → Bool
  | .empty => false
  | .occupied _ => true
  | .tombstone => false

/-- `matches(s, K)`: an Empty slot or a Tombstone never matches, whatever its KEYF
(41_probe_cam.md R500). -/
def Slot.holds (k : Word64) : Slot → Bool
  | .empty => false
  | .occupied k' => k' == k
  | .tombstone => false

/-! ### Positions -/

/-- The not-found sentinel, -1 in 32 bits (30_encoding.md R314). -/
def notFoundPos : Word32 := 0xFFFFFFFF

/-! ### Op codes (30_encoding.md R303) -/

/-- OP of INSERT. -/
def opInsert : BitVec 2 := 0b00
/-- OP of LOOKUP. -/
def opLookup : BitVec 2 := 0b01
/-- OP of REMOVE. -/
def opRemove : BitVec 2 := 0b10
/-- The reserved OP. -/
def opReserved : BitVec 2 := 0b11

/-! ### Response packing -/

/-- `rsp_data[7:0]`: OP, STATUS, EV_COMPACT, EV_SHRINK, EV_GROW from bit 0 up and the reserved bit 7,
0 (30_encoding.md R306). -/
def Response.lowByte (r : Response) : BitVec 8 :=
  0#1 ++ BitVec.ofBool r.ev.grow ++ BitVec.ofBool r.ev.shrink ++ BitVec.ofBool r.ev.compact
    ++ r.status.code ++ r.op

/-- `rsp_data` (30_encoding.md R306): KEY, HASH, CAP_AFTER, HOME, POS and the low byte, from the most
significant end. -/
def Response.pack (r : Response) : BitVec 232 :=
  r.key ++ r.hash ++ r.capAfter ++ r.home ++ r.pos ++ r.lowByte

/-! ### Keys and table indices -/

/-- Byte `i` of key pattern `k`, byte 0 the most significant: `K[63-8*i : 56-8*i]`
(40_hash_engine.md R402). -/
def keyByte (k : Word64) (i : Nat) : BitVec 8 := k.extractLsb' (56 - 8 * i) 8

/-- `HT_INDEX = t[2:0] ++ v[7:0]` (30_encoding.md R312). -/
def tableIndex (t : BitVec 3) (v : BitVec 8) : TableIndex := t ++ v

/-- `bits64(k)`, the two's-complement pattern of a signed key (00_scope.md R11, 30_encoding.md
R313). -/
def bits64 (k : Int) : Word64 := BitVec.ofInt 64 k

/-- `signed64(b)` (00_scope.md R11). -/
def signed64 (b : Word64) : Int := b.toInt

end Sys2Proof.Machine
end

