-- ==== Sys2Proof/Machine/Flags.lean ====
section
/-! DEFINITION. The load-factor comparators (43_sequencer.md R700) and the flags a host reads
(10_state.md R115, R122). The products are of natural numbers, so they are exact. -/

namespace Sys2Proof.Machine

/-- `FILLED * 65536 > GROW_THR * CAPACITY` (43_sequencer.md R700). -/
def State.growCond (s : State) : Bool :=
  s.growThr.toNat * s.capacity.toNat < s.filled.toNat * 65536

/-- `REMOVED * 65536 > CLEAN_THR * CAPACITY` (43_sequencer.md R700). -/
def State.cleanCond (s : State) : Bool :=
  Config.cleanThr.toNat * s.capacity.toNat < s.removed.toNat * 65536

/-- `FILLED * 65536 < SHRINK_THR * CAPACITY` (43_sequencer.md R700). -/
def State.shrinkCond (s : State) : Bool :=
  s.filled.toNat * 65536 < s.shrinkThr.toNat * s.capacity.toNat

/-- TABLES_COMPLETE, the AND of all 2048 HTW bits (10_state.md R107). -/
def State.tablesComplete (s : State) : Bool := s.htw == BitVec.allOnes 2048

/-- `busy`: a command or a CTRL action runs; 1 in every FSM state but IDLE (43_sequencer.md R720). -/
def State.busy (s : State) : Bool := s.dp.fsm != .idle

/-- `cmd_ready` but for its term `reg_req == 0`, which is an input (30_encoding.md R302). -/
def State.acceptsCommand (s : State) : Bool := s.mode == .run && !s.busy && !s.rspPending

/-- STATUS: `RSP_PENDING ++ TABLES_COMPLETE ++ MODE[1:0]`, zero-extended (10_state.md R122). -/
def State.statusWord (s : State) : Word64 :=
  (BitVec.ofBool s.rspPending ++ BitVec.ofBool s.tablesComplete ++ s.mode.code).setWidth 64

/-- FAULT_INFO: `FAULT_OP[1:0] ++ FAULT_CAUSE[3:0]`, zero-extended (10_state.md R123). -/
def State.faultInfoWord (s : State) : Word64 :=
  (s.faultOp ++ s.faultCause.code).setWidth 64

/-- CAPS: `P_LOOKUP_EMPTY_STOP ++ CAP_MAX[31:0]`, zero-extended (10_state.md R137). -/
def State.capsWord (s : State) : Word64 :=
  (BitVec.ofBool s.lookupEmptyStop ++ BitVec.ofNat 32 s.capMax).setWidth 64

end Sys2Proof.Machine
end

