-- ==== Sys2Proof/Machine/Ops.lean ====
section
/-! DEFINITION. The named operations over storages and registers, the probes, the rebuild and
compaction loops, fault entry and exit, the response: said once, used by every meaning. -/

namespace Sys2Proof.Machine

/-- What a step or a meaning answers. -/
abbrev Answer := Host.Outcome State Fault Refusal

/-! ### Storage: one canonical form -/

/-- What index `i` holds; `d` where nothing is listed. -/
def Memory.read {α : Type} (d : α) : Memory α → Nat → α
  | [], _ => d
  | (a, v) :: m, i => if a = i then v else Memory.read d m i

/-- Index `i` holds `v` from now on. Writing `d`, what an unlisted index holds, removes the entry. -/
def Memory.write {α : Type} [DecidableEq α] (d : α) : Memory α → Nat → α → Memory α
  | [], i, v => if v = d then [] else [(i, v)]
  | (a, w) :: m, i, v =>
    if a < i then (a, w) :: Memory.write d m i v
    else if a = i then (if v = d then m else (i, v) :: m)
    else (if v = d then (a, w) :: m else (i, v) :: (a, w) :: m)

/-- Every index below `n` holds what an unlisted index holds: the loop `for i in 0 .. n-1` of
44_register_ops.md R805 and 43_sequencer.md R707 at once (Laws/Memory.lean proves them equal). -/
def Memory.clearBelow {α : Type} (n : Nat) (m : Memory α) : Memory α :=
  m.filter fun e => decide (n ≤ e.1)

/-- The canonical form: indices strictly rising, no entry that holds `d`. -/
abbrev Memory.wf {α : Type} [DecidableEq α] (d : α) (m : Memory α) : Prop :=
  m.Pairwise (fun x y => x.1 < y.1) ∧ ∀ e ∈ m, e.2 ≠ d

/-! ### Lookup tables -/

/-- HTW of entry `i` (10_state.md R107). -/
def State.htWritten (s : State) (i : TableIndex) : Bool := s.htw.getLsbD i.toNat

/-- `TabRead`: HT[t][v] by its index; a free value while the entry's HTW bit is 0 (00_scope.md R13,
10_state.md R133). -/
def State.tabRead (s : State) (i : TableIndex) : Word64 :=
  if s.htWritten i then Memory.read 0 s.ht i.toNat else Config.unwrittenEntry s.freeCtr i

/-- `TabWrite` with its HTW bit (00_scope.md R13, 44_register_ops.md R803). -/
def State.tabWrite (s : State) (i : TableIndex) (d : Word64) : State :=
  { s with ht := Memory.write 0 s.ht i.toNat d, htw := s.htw ||| BitVec.twoPow 2048 i.toNat }

/-- The lane `i` lookup, `HT[i][B_i]` (40_hash_engine.md R403). -/
def State.lane (s : State) (k : Word64) (i : Nat) : Word64 :=
  s.tabRead (tableIndex (BitVec.ofNat 3 i) (keyByte k i))

/-- `hash64(K)` (40_hash_engine.md R404). -/
def State.hash64 (s : State) (k : Word64) : Word64 :=
  (List.range 8).foldl (fun acc i => acc ^^^ s.lane k i) 0

/-- `hash64(K) mod C` (40_hash_engine.md R405), `C >= 1`. -/
def State.homeOf (s : State) (k : Word64) (c : Nat) : Nat := (s.hash64 k).toNat % c

/-! ### Slot banks -/

/-- BANK[b] (10_state.md R108). -/
def State.bank (s : State) (b : BitVec 1) : Memory Slot := if b = 0 then s.bank0 else s.bank1

/-- BANK[b] replaced as a whole. -/
def State.setBank (s : State) (b : BitVec 1) (m : Memory Slot) : State :=
  if b = 0 then { s with bank0 := m } else { s with bank1 := m }

/-- `SlotRead(b, i)` (00_scope.md R13). -/
def State.slotRead (s : State) (b : BitVec 1) (i : Nat) : Slot := Memory.read .empty (s.bank b) i

/-- `SlotWrite(b, i, v)` (00_scope.md R13). -/
def State.slotWrite (s : State) (b : BitVec 1) (i : Nat) (v : Slot) : State :=
  s.setBank b (Memory.write .empty (s.bank b) i v)

/-- `S(i)`, slot `i` of the active bank (00_scope.md R13). -/
def State.slot (s : State) (i : Nat) : Slot := s.slotRead s.active i

/-- `1 <= CAPACITY <= CAP_MAX`, which every rule on the table starts from (42_commands.md R600). -/
def State.capacityInRange (s : State) : Bool :=
  decide (1 ≤ s.capacity.toNat) && decide (s.capacity.toNat ≤ s.capMax)

/-! ### The probe sub-block -/

/-- What a probe reports: `pc_hit` with `pc_pos`, and `pc_off` (30_encoding.md R321). -/
structure ProbeResult where
  found : Option Nat
  off : Nat
  deriving DecidableEq, Repr

/-- Positions `(home + off) mod c` from offset `off` on, `n` of them, one slot a turn: a slot with
`hit` ends the probe with its position, one with `stop` ends it without (41_probe_cam.md R501,
R502). -/
def probeFrom (m : Memory Slot) (home c : Nat) (hit stop : Slot → Bool) : Nat → Nat → ProbeResult
  | 0, off => ⟨none, off⟩
  | n + 1, off =>
    let p := (home + off) % c
    let v := Memory.read .empty m p
    if hit v then ⟨some p, off⟩
    else if stop v then ⟨none, off⟩
    else probeFrom m home c hit stop n (off + 1)

/-- `probe_free(b, home, C)` (41_probe_cam.md R503). -/
def probeFree (m : Memory Slot) (home c : Nat) : ProbeResult :=
  probeFrom m home c Slot.isEmpty (fun _ => false) c 0

/-- `probe_key(home, C, K)`; `stopAtEmpty` is P_LOOKUP_EMPTY_STOP (41_probe_cam.md R504). -/
def probeKey (stopAtEmpty : Bool) (m : Memory Slot) (home c : Nat) (k : Word64) : ProbeResult :=
  probeFrom m home c (Slot.holds k) (fun v => stopAtEmpty && v.isEmpty) c 0

/-! ### Faults and responses -/

/-- `raise Fault(cause, op, key)` (60_exceptions.md R903): the mode, the fault record, and the FSM
back at IDLE; nothing else. -/
def raiseFault (cause : Cause) (op : BitVec 2) (key : Word64) (s : State) : State :=
  { s with mode := .fault, faultCause := cause, faultOp := op, faultKey := key,
           dp := Datapath.idle }

/-- `respond(r)` (42_commands.md R607): the record, RSP_PENDING, and the FSM back at IDLE. -/
def respond (r : Response) (s : State) : State :=
  { s with rsp := r, rspPending := true, dp := Datapath.idle }

/-- `reply(d, e)` (44_register_ops.md, 30_encoding.md R309). -/
def State.answer (s : State) (d : Word64) (e : Bool) : State := { s with reply := some ⟨d, e⟩ }

/-- A refused register transaction: reg_err = 1, read data 0, nothing else
(44_register_ops.md R800, R809). -/
def State.refuse (s : State) : State := s.answer 0 true

/-- The next use of a free value is another one. -/
def State.nextFree (s : State) : State := { s with freeCtr := s.freeCtr + 1 }

/-- Leaving FAULT, or any mode: what SOFT_RESET does (44_register_ops.md R806, 60_exceptions.md
R905). HT, HTW, INIT_CAPACITY and the thresholds are kept, the slot banks hold whatever they held
(70_reset_and_hazards.md R1001), RSP is unspecified (10_state.md R140). The datapath registers stay as they
were: the FSM is idle when SOFT_RESET is served, and R140 says that they then hold nothing (DESIGN
CHOICE, log entry 24). -/
def softReset (s : State) : State :=
  { s with mode := .config, capacity := 0, filled := 0, removed := 0, active := 0,
           rspPending := false, rsp := Config.unspecifiedRsp s.freeCtr,
           faultCause := .none, faultOp := 0, faultKey := 0, htIndex := 0, slotIndex := 0,
           freeCtr := s.freeCtr + 1 }

/-- rst = 1 at an edge (70_reset_and_hazards.md R1000): as SOFT_RESET, and the configuration at its
reset values, every HTW bit 0, the FSM idle whatever it was doing and the datapath clear (log entry 6), reg_ack 0. HT and the banks hold
whatever they held (R1001); no entry of HT reads as that any more. -/
def hardwareReset (s : State) : State :=
  { softReset s with initCapacity := 0, growThr := 49152, shrinkThr := 16384, htw := 0,
                     dp := Datapath.idle, reply := none }

/-! ### Rebuild, grow, shrink -/

/-- How a sequence that can raise a fault ends: done with its events, or in FAULT mode. -/
inductive Ran where
  | done (s : State) (ev : Events)
  | raised (s : State)

/-- The placement loop of `rebuild(N)` (43_sequencer.md R707) over `n` slots of the old array from
index `j` on: every Occupied key by the insertion probe into the fresh bank; Tombstones and Empty
slots are not copied. The second part says whether every key found a slot. -/
def placeFrom (hash : Word64 → Word64) (old : Memory Slot) (newCap : Nat) :
    Nat → Nat → Memory Slot → Memory Slot × Bool
  | 0, _, fresh => (fresh, true)
  | n + 1, j, fresh =>
    match Memory.read .empty old j with
    | .occupied k =>
      match (probeFree fresh ((hash k).toNat % newCap) newCap).found with
      | some p => placeFrom hash old newCap n (j + 1) (Memory.write .empty fresh p (.occupied k))
      | none => (fresh, false)
    | .empty => placeFrom hash old newCap n (j + 1) fresh
    | .tombstone => placeFrom hash old newCap n (j + 1) fresh

/-- `rebuild(N)` (43_sequencer.md R706, R707) with the fault context of R705. The new table is built
in the inactive bank; ACTIVE, CAPACITY and REMOVED change only when every key is placed. A rebuild that
does not fault leaves the datapath registers as they were, OFF and P of its placement probes among them:
41_probe_cam.md R502 gives those no value once the probes are over (DESIGN CHOICE, log entry 24). -/
def rebuild (op : BitVec 2) (key : Word64) (newCap : Nat) (s : State) : Ran :=
  let nb := 1 - s.active
  let built := placeFrom s.hash64 (s.bank s.active) newCap s.capacity.toNat 0
    (Memory.clearBelow newCap (s.bank nb))
  let s1 := s.setBank nb built.1
  if built.2 then
    .done { s1 with active := nb, capacity := BitVec.ofNat 32 newCap, removed := 0 } Events.none
  else .raised (raiseFault .shrinkOverflow op key s1)

/-- `grow()` (43_sequencer.md R703). `2 * CAPACITY` is not cut to 32 bits. -/
def growTable (op : BitVec 2) (key : Word64) (s : State) : Ran :=
  if s.capMax < 2 * s.capacity.toNat then .raised (raiseFault .growOverflow op key s)
  else rebuild op key (2 * s.capacity.toNat) s

/-- `shrink()` (43_sequencer.md R704); its callers guarantee CAPACITY > 1. -/
def shrinkTable (op : BitVec 2) (key : Word64) (s : State) : Ran :=
  rebuild op key (s.capacity.toNat / 2) s

/-! ### Compaction -/

/-- The inner loop of `compact()` (43_sequencer.md R710) for at most `n` slots from index `j` on:
Occupied slots below `c` move left by `size`, until another slot is met. -/
def shiftRun (c size : Nat) : Nat → Nat → Memory Slot → Memory Slot × Nat
  | 0, j, m => (m, j)
  | n + 1, j, m =>
    if j < c then
      match Memory.read .empty m j with
      | .occupied k =>
        shiftRun c size n (j + 1)
          (Memory.write .empty (Memory.write .empty m (j - size) (.occupied k)) j .empty)
      | .empty => (m, j)
      | .tombstone => (m, j)
    else (m, j)

/-- The outer loop of `compact()` (43_sequencer.md R710) for at most `n` turns from scan index `i`
with run start `start`. Each turn passes at least one slot, so `c` turns suffice. -/
def compactFrom (c : Nat) : Nat → Nat → Option Nat → Memory Slot → Memory Slot
  | 0, _, _, m => m
  | n + 1, i, start, m =>
    if i < c then
      match Memory.read .empty m i with
      | .tombstone =>
        compactFrom c n (i + 1) (some (start.getD i)) (Memory.write .empty m i .empty)
      | .empty => compactFrom c n (i + 1) start m
      | .occupied _ =>
        match start with
        | none => compactFrom c n (i + 1) none m
        | some st =>
          let moved := shiftRun c (i - st) (c - i) i m
          compactFrom c n moved.2 none moved.1
    else m

/-- The slots of a table of capacity `c` after `compact()`. -/
def compactBank (c : Nat) (m : Memory Slot) : Memory Slot := compactFrom c c 0 none m

/-- `compact()` (43_sequencer.md R710). It leaves the datapath registers as they were, its scan index, run
start and shift index among them, which R710 gives no value once it is over (DESIGN CHOICE, log entry
24). -/
def compactTable (s : State) : State :=
  { s.setBank s.active (compactBank s.capacity.toNat (s.bank s.active)) with removed := 0 }

/-! ### After a slot write -/

/-- `post_insert()` (43_sequencer.md R701). -/
def postInsert (key : Word64) (s : State) : Ran :=
  if s.growCond then
    match growTable opInsert key s with
    | .done s1 _ => .done s1 { Events.none with grow := true }
    | .raised s1 => .raised s1
  else .done s Events.none

/-- The shrink check of `post_remove()`, with the guard CAPACITY > 1 (43_sequencer.md R702, R704). -/
def shrinkIfLow (key : Word64) (ev : Events) (s : State) : Ran :=
  if s.shrinkCond && decide (1 < s.capacity.toNat) then
    match shrinkTable opRemove key s with
    | .done s1 _ => .done s1 { ev with shrink := true }
    | .raised s1 => .raised s1
  else .done s ev

/-- `post_remove()` (43_sequencer.md R702): compaction first, then the shrink check. -/
def postRemove (key : Word64) (s : State) : Ran :=
  if s.cleanCond then shrinkIfLow key { Events.none with compact := true } (compactTable s)
  else shrinkIfLow key Events.none s

/-! ### Acceptance -/

/-- A command at the command port: it transfers only when the engine accepts one, and otherwise
waits with nothing changed (30_encoding.md R302, 42_commands.md R600). -/
def onCommandPort (s : State) (run : State → State) : Answer :=
  if s.acceptsCommand then
    if s.capacityInRange then .next (run s) else .fault .capacityOutOfRange
  else .next s

/-- A transaction at the register port: served only when the engine is idle, and otherwise waits
with nothing changed (20_memory.md R211, 44_register_ops.md R800). -/
def onRegisterPort (s : State) (run : State → Answer) : Answer :=
  if s.busy then .next s else run s

/-- A configuration write, allowed in CONFIG mode only (44_register_ops.md R802, R803). -/
def onConfigWrite (s : State) (run : State → State) : Answer :=
  onRegisterPort s fun s => .next (if s.mode = .config then (run s).answer 0 false else s.refuse)

/-- A write to a read-only or reserved index (44_register_ops.md R809). -/
def onRefusedWrite (s : State) : Answer := onRegisterPort s fun s => .next s.refuse

end Sys2Proof.Machine
end

