-- ==== Sys2Proof/Machine/Commands.lean ====
section
/-! DEFINITION. The CMD family: INSERT, LOOKUP, REMOVE and the reserved op code
(42_commands.md R600 to R608). -/

namespace Sys2Proof.Machine

/-- The body of INSERT, once accepted (42_commands.md R601). POS and HOME are those of the slot
written before any grow. -/
def runInsert (key : Word64) (s : State) : State :=
  let c := s.capacity.toNat
  let h := s.hash64 key
  let home := s.homeOf key c
  match (probeFree (s.bank s.active) home c).found with
  | none => raiseFault .probeFull opInsert key s
  | some p =>
    let s1 := { s.slotWrite s.active p (.occupied key) with filled := s.filled + 1 }
    match postInsert key s1 with
    | .raised s2 => s2
    | .done s2 ev =>
      respond { op := opInsert, status := .ok, ev := ev, pos := BitVec.ofNat 32 p,
                home := BitVec.ofNat 32 home, capAfter := s2.capacity, hash := h, key := key } s2

/-- The response of LOOKUP and of a REMOVE that finds nothing (42_commands.md R602, R603). -/
def probeResponse (op : BitVec 2) (key : Word64) (s : State) : Response :=
  let c := s.capacity.toNat
  let h := s.hash64 key
  let home := s.homeOf key c
  let found := (probeKey s.lookupEmptyStop (s.bank s.active) home c key).found
  { op := op, status := if found.isSome then .ok else .notFound, ev := Events.none,
    pos := (found.map (BitVec.ofNat 32)).getD notFoundPos, home := BitVec.ofNat 32 home,
    capAfter := s.capacity, hash := h, key := key }

/-- The body of LOOKUP, once accepted (42_commands.md R602). -/
def runLookup (key : Word64) (s : State) : State := respond (probeResponse opLookup key s) s

/-- The body of REMOVE, once accepted (42_commands.md R603). -/
def runRemove (key : Word64) (s : State) : State :=
  let c := s.capacity.toNat
  let h := s.hash64 key
  let home := s.homeOf key c
  match (probeKey s.lookupEmptyStop (s.bank s.active) home c key).found with
  | none => respond (probeResponse opRemove key s) s
  | some p =>
    let s1 := { s.slotWrite s.active p .tombstone with
                removed := s.removed + 1, filled := s.filled - 1 }
    match postRemove key s1 with
    | .raised s2 => s2
    | .done s2 ev =>
      respond { op := opRemove, status := .ok, ev := ev, pos := BitVec.ofNat 32 p,
                home := BitVec.ofNat 32 home, capAfter := s2.capacity, hash := h, key := key } s2

/-- The ILLEGAL response of the reserved op code (42_commands.md R604). -/
def reservedResponse (key : Word64) (s : State) : Response :=
  { op := opReserved, status := .illegal, ev := Events.none, pos := notFoundPos, home := 0,
    capAfter := s.capacity, hash := 0, key := key }

/-- The body of CMD_RESERVED, once accepted (42_commands.md R604). -/
def runReserved (key : Word64) (s : State) : State := respond (reservedResponse key s) s

/-- INSERT (42_commands.md R601). -/
def execInsert (key : Word64) (s : State) : Answer := onCommandPort s (runInsert key)

/-- LOOKUP (42_commands.md R602). -/
def execLookup (key : Word64) (s : State) : Answer := onCommandPort s (runLookup key)

/-- REMOVE (42_commands.md R603). -/
def execRemove (key : Word64) (s : State) : Answer := onCommandPort s (runRemove key)

/-- CMD_RESERVED (42_commands.md R604). -/
def execCmdReserved (key : Word64) (s : State) : Answer := onCommandPort s (runReserved key)

end Sys2Proof.Machine
end

