-- ==== Sys2Proof/Machine/Control.lean ====
section
/-! DEFINITION. The CTRL family: WR_CTRL, START, SOFT_RESET, COMPACT_NOW
(44_register_ops.md R804 to R807). -/

namespace Sys2Proof.Machine

/-- The conditions START checks (44_register_ops.md R805). -/
def State.startLegal (s : State) : Bool :=
  s.mode == .config
    && decide (1 ≤ s.initCapacity.toNat) && decide (s.initCapacity.toNat ≤ s.capMax)
    && decide (1 ≤ s.growThr.toNat) && decide (s.growThr.toNat ≤ 65536)
    && decide (s.shrinkThr.toNat ≤ 65535)
    && s.tablesComplete

/-- The table START builds: bank 0, all Empty, and the counters (44_register_ops.md R805). The datapath
registers, the clear index of its loop among them, stay as they were, since R805 gives them no value once
START is over (DESIGN CHOICE, log entry 24). -/
def startTable (s : State) : State :=
  { s with bank0 := Memory.clearBelow s.initCapacity.toNat s.bank0, active := 0,
           capacity := s.initCapacity, filled := 0, removed := 0, mode := .run }

/-- WR_CTRL with a value that selects no action (44_register_ops.md R804): 0 does nothing, every
other is refused. -/
def execWrCtrl (d : Word64) (s : State) : Answer :=
  onRegisterPort s fun s => .next (if d = 0 then s.answer 0 false else s.refuse)

/-- START (44_register_ops.md R805). -/
def execStart (s : State) : Answer :=
  onRegisterPort s fun s =>
    .next (if s.startLegal then (startTable s).answer 0 false else s.refuse)

/-- SOFT_RESET (44_register_ops.md R806), accepted in every mode. -/
def execSoftReset (s : State) : Answer :=
  onRegisterPort s fun s => .next ((softReset s).answer 0 false)

/-- COMPACT_NOW (44_register_ops.md R807), in RUN mode only; RSP is not touched. -/
def execCompactNow (s : State) : Answer :=
  onRegisterPort s fun s =>
    if s.mode = .run then
      if s.capacityInRange then .next ((compactTable s).answer 0 false)
      else .fault .capacityOutOfRange
    else .next s.refuse

end Sys2Proof.Machine
end

