-- ==== Sys2Proof/Machine/Internal.lean ====
section
/-! DEFINITION. The internal operations on their own (30_encoding.md R315): HASH, PROBE_FREE,
PROBE_KEY, GROW, SHRINK, REBUILD, COMPACT. No port selects them; each is run here as the control FSM
runs it inside a command, its result in the hidden register that the next FSM state reads
(10_state.md R114, 30_encoding.md R320, R321; log entry 7). -/

namespace Sys2Proof.Machine

/-- A probe's result in the output registers of `linear_probe_cam` (30_encoding.md R321). P, which is
none of them, keeps what it held: 41_probe_cam.md R502 does not say where P stands once a probe is over
(DESIGN CHOICE, log entry 22). -/
def latchProbe (r : ProbeResult) (s : State) : State :=
  { s with dp := { s.dp with found := r.found.map (BitVec.ofNat 32), off := BitVec.ofNat 32 r.off } }

/-- A sequence's state, whether it ended or raised a fault: what the caller finds. -/
def Ran.state : Ran → State
  | .done s _ => s
  | .raised s => s

/-- The operands a probe admits on this build (41_probe_cam.md R501). For PROBE_KEY the rule fixes the
capacity to CAPACITY; that another one within 1..CAP_MAX is admitted is the model's choice (DESIGN CHOICE,
log entry 23). -/
def State.probeLegal (s : State) (home cap : Word32) : Bool :=
  decide (1 ≤ cap.toNat) && decide (cap.toNat ≤ s.capMax) && decide (home.toNat < cap.toNat)

/-- HASH (40_hash_engine.md R404): the hash in `hv`, no other state. -/
def execHash (key : Word64) (s : State) : Answer :=
  .next { s with dp := { s.dp with hash := s.hash64 key } }

/-- PROBE_FREE (41_probe_cam.md R503): the result in the probe outputs, no slot, no counter. -/
def execProbeFree (bank : BitVec 1) (home cap : Word32) (s : State) : Answer :=
  if s.probeLegal home cap then
    .next (latchProbe (probeFree (s.bank bank) home.toNat cap.toNat) s)
  else .fault .operandOutOfRange

/-- PROBE_KEY (41_probe_cam.md R504), always in the active bank. With a capacity operand other than
CAPACITY it examines that many slots of the bank, those outside the table included (DESIGN CHOICE, log
entry 23). -/
def execProbeKey (home cap : Word32) (key : Word64) (s : State) : Answer :=
  if s.probeLegal home cap then
    .next (latchProbe
      (probeKey s.lookupEmptyStop (s.bank s.active) home.toNat cap.toNat key) s)
  else .fault .operandOutOfRange

/-- GROW (43_sequencer.md R703); the fault context is the running command's (R705). Without a fault the
datapath registers, OFF and P too, stay as they were (DESIGN CHOICE, log entry 24). -/
def execGrow (s : State) : Answer :=
  if s.capacityInRange then .next (growTable s.dp.op s.dp.key s).state
  else .fault .capacityOutOfRange

/-- SHRINK (43_sequencer.md R704): at CAPACITY = 1 no shrink is started (93_implementation_defined.md
I1). Without a fault the datapath registers, OFF and P too, stay as they were (DESIGN CHOICE, log entry
24). -/
def execShrink (s : State) : Answer :=
  if s.capacityInRange then
    .next (if 1 < s.capacity.toNat then (shrinkTable s.dp.op s.dp.key s).state else s)
  else .fault .capacityOutOfRange

/-- REBUILD (43_sequencer.md R707), `1 <= N <= CAP_MAX`. Without a fault the datapath registers, OFF and P
too, stay as they were (DESIGN CHOICE, log entry 24). -/
def execRebuild (newCap : Word32) (s : State) : Answer :=
  if s.capacityInRange then
    if 1 ≤ newCap.toNat ∧ newCap.toNat ≤ s.capMax then
      .next (rebuild s.dp.op s.dp.key newCap.toNat s).state
    else .fault .operandOutOfRange
  else .fault .capacityOutOfRange

/-- COMPACT (43_sequencer.md R710). The datapath registers stay as they were (DESIGN CHOICE, log entry
24). -/
def execCompact (s : State) : Answer :=
  if s.capacityInRange then .next (compactTable s) else .fault .capacityOutOfRange

end Sys2Proof.Machine
end

