-- ==== Sys2Proof/Machine/Registers.lean ====
section
/-! DEFINITION. The REG family but for the CTRL actions: RD, WR_CFG, WR_HT_DATA, WR_SLOT_INDEX and
WR_REFUSED (44_register_ops.md R800 to R803, R808, R809; register map 10_state.md R120 to R138). -/

namespace Sys2Proof.Machine

/-- The slot SLOT_TAG and SLOT_KEY show: none when SLOT_INDEX is not below CAPACITY
(10_state.md R135, R136). -/
def State.peekedSlot (s : State) : Option Slot :=
  if s.slotIndex.toNat < s.capacity.toNat then some (s.slot s.slotIndex.toNat) else none

/-- What `RD(a)` replies (44_register_ops.md R801). -/
def State.readRegister (s : State) (a : BitVec 8) : Reply :=
  match a.toNat with
  | 0x00 => ⟨0, false⟩
  | 0x01 => ⟨s.statusWord, false⟩
  | 0x02 => ⟨s.faultInfoWord, false⟩
  | 0x03 => ⟨s.faultKey, false⟩
  | 0x04 => ⟨s.initCapacity.setWidth 64, false⟩
  | 0x05 => ⟨s.growThr.setWidth 64, false⟩
  | 0x06 => ⟨s.shrinkThr.setWidth 64, false⟩
  | 0x07 => ⟨Config.cleanThr.setWidth 64, false⟩
  | 0x08 => ⟨s.capacity.setWidth 64, false⟩
  | 0x09 => ⟨s.filled.setWidth 64, false⟩
  | 0x0A => ⟨s.removed.setWidth 64, false⟩
  | 0x0B => ⟨s.htIndex.setWidth 64, false⟩
  | 0x0C => ⟨s.tabRead s.htIndex, false⟩
  | 0x0D => ⟨s.slotIndex.setWidth 64, false⟩
  | 0x0E =>
    match s.peekedSlot with
    | some v => ⟨v.tag.setWidth 64, false⟩
    | none => ⟨0, true⟩
  | 0x0F =>
    match s.peekedSlot with
    | some v => ⟨v.keyf, false⟩
    | none => ⟨0, true⟩
  | 0x10 => ⟨s.capsWord, false⟩
  | _ => ⟨0, true⟩

/-- The read uses a free value: HT_DATA at an entry whose HTW bit is 0 (10_state.md R133). -/
def State.readIsFree (s : State) (a : BitVec 8) : Bool := a == 0x0C && !s.htWritten s.htIndex

/-- The read would need a slot that does not exist: below CAPACITY, at or above CAP_MAX. No state a
run reaches has one (10_state.md R110). -/
def State.readIsOutside (s : State) (a : BitVec 8) : Bool :=
  (a == 0x0E || a == 0x0F) && decide (s.slotIndex.toNat < s.capacity.toNat)
    && decide (s.capMax ≤ s.slotIndex.toNat)

/-- RD (44_register_ops.md R801); WDATA is ignored. Only the reply is written, and the model's count
of free values when one was given out. -/
def execRd (a : BitVec 8) (_wdata : Word64) (s : State) : Answer :=
  onRegisterPort s fun s =>
    if s.readIsOutside a then .fault .slotOutOfBank
    else
      let s1 := { s with reply := some (s.readRegister a) }
      .next (if s.readIsFree a then s1.nextFree else s1)

/-- WR_CFG at INIT_CAPACITY (44_register_ops.md R802, 10_state.md R125). -/
def execWrInitCapacity (d : Word64) (s : State) : Answer :=
  onConfigWrite s fun s => { s with initCapacity := d.setWidth 32 }

/-- WR_CFG at GROW_THR (44_register_ops.md R802, 10_state.md R126). -/
def execWrGrowThr (d : Word64) (s : State) : Answer :=
  onConfigWrite s fun s => { s with growThr := d.setWidth 17 }

/-- WR_CFG at SHRINK_THR (44_register_ops.md R802, 10_state.md R127). -/
def execWrShrinkThr (d : Word64) (s : State) : Answer :=
  onConfigWrite s fun s => { s with shrinkThr := d.setWidth 17 }

/-- WR_CFG at HT_INDEX (44_register_ops.md R802, 10_state.md R132). -/
def execWrHtIndex (d : Word64) (s : State) : Answer :=
  onConfigWrite s fun s => { s with htIndex := d.setWidth 11 }

/-- WR_HT_DATA (44_register_ops.md R803): the entry, its HTW bit, and HT_INDEX one on, modulo
2048. -/
def execWrHtData (d : Word64) (s : State) : Answer :=
  onConfigWrite s fun s => { s.tabWrite s.htIndex d with htIndex := s.htIndex + 1 }

/-- WR_SLOT_INDEX (44_register_ops.md R808), accepted in every mode. -/
def execWrSlotIndex (d : Word64) (s : State) : Answer :=
  onRegisterPort s fun s => .next ({ s with slotIndex := d.setWidth 32 }.answer 0 false)

/-- WR_REFUSED at 0x01, STATUS (44_register_ops.md R809). -/
def execWrRefused01 (_wdata : Word64) (s : State) : Answer := onRefusedWrite s

/-- WR_REFUSED at FAULT_INFO and FAULT_KEY (44_register_ops.md R809). -/
def execWrRefused02 (_low : BitVec 1) (_wdata : Word64) (s : State) : Answer := onRefusedWrite s

/-- WR_REFUSED at CLEAN_THR (44_register_ops.md R809). -/
def execWrRefused07 (_wdata : Word64) (s : State) : Answer := onRefusedWrite s

/-- WR_REFUSED at CAPACITY and FILLED (44_register_ops.md R809). -/
def execWrRefused08 (_low : BitVec 1) (_wdata : Word64) (s : State) : Answer := onRefusedWrite s

/-- WR_REFUSED at REMOVED (44_register_ops.md R809). -/
def execWrRefused0A (_wdata : Word64) (s : State) : Answer := onRefusedWrite s

/-- WR_REFUSED at SLOT_TAG and SLOT_KEY (44_register_ops.md R809). -/
def execWrRefused0E (_low : BitVec 1) (_wdata : Word64) (s : State) : Answer := onRefusedWrite s

/-- WR_REFUSED at CAPS and the reserved indices to 0x1F (44_register_ops.md R809). -/
def execWrRefused10 (_low : BitVec 4) (_wdata : Word64) (s : State) : Answer := onRefusedWrite s

/-- WR_REFUSED at the reserved indices 0x20 to 0x3F (44_register_ops.md R809). -/
def execWrRefused20 (_low : BitVec 5) (_wdata : Word64) (s : State) : Answer := onRefusedWrite s

/-- WR_REFUSED at the reserved indices 0x40 to 0x7F (44_register_ops.md R809). -/
def execWrRefused40 (_low : BitVec 6) (_wdata : Word64) (s : State) : Answer := onRefusedWrite s

/-- WR_REFUSED at the reserved indices 0x80 to 0xFF (44_register_ops.md R809). -/
def execWrRefused80 (_low : BitVec 7) (_wdata : Word64) (s : State) : Answer := onRefusedWrite s

end Sys2Proof.Machine
end

