-- ==== Sys2Proof/Machine/Dispatch.lean ====
section
/-! DEFINITION. One arm for each constructor of Instr. -/

namespace Sys2Proof.Machine

def exec (i : Instr) (s : State) : Host.Outcome State Fault Refusal :=
  match i with
  | .insert key => Sys2Proof.Machine.execInsert key s
  | .lookup key => Sys2Proof.Machine.execLookup key s
  | .remove key => Sys2Proof.Machine.execRemove key s
  | .cmdReserved key => Sys2Proof.Machine.execCmdReserved key s
  | .rd addr wdata => Sys2Proof.Machine.execRd addr wdata s
  | .wrInitCapacity wdata => Sys2Proof.Machine.execWrInitCapacity wdata s
  | .wrGrowThr wdata => Sys2Proof.Machine.execWrGrowThr wdata s
  | .wrShrinkThr wdata => Sys2Proof.Machine.execWrShrinkThr wdata s
  | .wrHtIndex wdata => Sys2Proof.Machine.execWrHtIndex wdata s
  | .wrHtData wdata => Sys2Proof.Machine.execWrHtData wdata s
  | .wrCtrl wdata => Sys2Proof.Machine.execWrCtrl wdata s
  | .start => Sys2Proof.Machine.execStart s
  | .softReset => Sys2Proof.Machine.execSoftReset s
  | .compactNow => Sys2Proof.Machine.execCompactNow s
  | .wrSlotIndex wdata => Sys2Proof.Machine.execWrSlotIndex wdata s
  | .wrRefused01 wdata => Sys2Proof.Machine.execWrRefused01 wdata s
  | .wrRefused02 low wdata => Sys2Proof.Machine.execWrRefused02 low wdata s
  | .wrRefused07 wdata => Sys2Proof.Machine.execWrRefused07 wdata s
  | .wrRefused08 low wdata => Sys2Proof.Machine.execWrRefused08 low wdata s
  | .wrRefused0A wdata => Sys2Proof.Machine.execWrRefused0A wdata s
  | .wrRefused0E low wdata => Sys2Proof.Machine.execWrRefused0E low wdata s
  | .wrRefused10 low wdata => Sys2Proof.Machine.execWrRefused10 low wdata s
  | .wrRefused20 low wdata => Sys2Proof.Machine.execWrRefused20 low wdata s
  | .wrRefused40 low wdata => Sys2Proof.Machine.execWrRefused40 low wdata s
  | .wrRefused80 low wdata => Sys2Proof.Machine.execWrRefused80 low wdata s
  | .hash key => Sys2Proof.Machine.execHash key s
  | .probeFree bank home cap => Sys2Proof.Machine.execProbeFree bank home cap s
  | .probeKey home cap key => Sys2Proof.Machine.execProbeKey home cap key s
  | .grow => Sys2Proof.Machine.execGrow s
  | .shrink => Sys2Proof.Machine.execShrink s
  | .rebuild newCap => Sys2Proof.Machine.execRebuild newCap s
  | .compact => Sys2Proof.Machine.execCompact s

end Sys2Proof.Machine
end

