-- ==== Sys2Proof/Machine/Ports.lean ====
section
/-! DEFINITION. The ports: what the host drives at an edge, which transaction the engine performs
there, what its outputs show, and the presentation of one operation (30_encoding.md R300 to R309,
20_memory.md R210, R211). -/

namespace Sys2Proof.Machine

/-- Nothing driven: every input low. -/
def PortIn.low : PortIn := { rst := false, cmd := none, reg := none, rspReady := false }

/-- A port word presented alone. -/
def PortIn.ofWord : PortWord → PortIn
  | .cmd w => { PortIn.low with cmd := some w }
  | .reg w => { PortIn.low with reg := some w }

/-- What the host drives at the coming edge. -/
def State.pins (s : State) : PortIn := s.inputs.head?.getD PortIn.low

/-- The edge has passed: the host's next sample is due, and reg_ack is 0 unless the transaction of
this edge sets it (30_encoding.md R307); the state after the edge holds the reply (log entry 25). -/
def State.advance (s : State) : State := { s with inputs := s.inputs.tail, reply := none }

/-- The response transfers: `rsp_valid = RSP_PENDING` and `rsp_ready` (30_encoding.md R304). -/
def State.transfersResponse (s : State) : Bool := s.rspPending && s.pins.rspReady

/-- The hand-over of the response changes only RSP_PENDING (20_memory.md R212). -/
def handOver (s : State) : State := { s with rspPending := false }

/-- The response port at an edge, open whether or not the engine is busy (30_encoding.md R304). -/
def takeResponse (s : State) : State := if s.transfersResponse then handOver s else s

/-- The output ports (30_encoding.md R300, R302, R304, R309); `cmd_ready` looks at the register
request of the same cycle. `cmd_ready` and `rsp_valid` are the values at the coming edge; reg_ack,
reg_rdata and reg_err are those of the edge that led to this state, so a request still driven here is a
new transaction. 30_encoding.md R307 names the edge and does not say on which side of it a state shows the
reply (DESIGN CHOICE, log entry 25). -/
def State.outputs (s : State) : PortOut :=
  { cmdReady := s.acceptsCommand && s.pins.reg.isNone
    rspValid := s.rspPending
    rspData := s.rsp.pack
    regReply := s.reply
    busy := s.busy
    fault := s.mode == .fault }

/-- What the engine does at an edge. -/
inductive EdgeAction where
  /-- rst overrides every other input (30_encoding.md R301) -/
  | hardReset
  /-- the FSM is not idle: neither request port is served (20_memory.md R211) -/
  | microStep
  /-- a register transaction alone -/
  | register (i : Instr)
  /-- a register transaction, then the response hand-over -/
  | registerThenHandOver (i : Instr)
  /-- the response hand-over, then a register transaction -/
  | handOverThenRegister (i : Instr)
  /-- a response hand-over; a command presented with it waits, RSP_PENDING being 1 -/
  | handOver
  /-- a command alone; whether it is accepted is the command's own question (R302) -/
  | command (i : Instr)
  /-- nothing is presented -/
  | nothing

/-- Choosing the transaction of an edge: rst first, then a running FSM, then the register port before
the command port (20_memory.md R211). A hand-over at the same edge as a register transaction takes
effect before or after it, as a free value says (log entry 9). -/
def State.edge (s : State) : EdgeAction :=
  if s.pins.rst then .hardReset
  else if s.busy then .microStep
  else
    match s.pins.reg with
    | some w =>
      if s.transfersResponse then
        if Config.handOverFirst s.freeCtr then .handOverThenRegister (decodeReg w)
        else .registerThenHandOver (decodeReg w)
      else .register (decodeReg w)
    | none =>
      if s.transfersResponse then .handOver
      else
        match s.pins.cmd with
        | some w => .command (decodeCmd w)
        | none => .nothing

/-- A transaction's answer with one more change to its next state. -/
def andThen (r : Answer) (f : State → State) : Answer :=
  match r with
  | .next s => .next (f s)
  | .fault e => .fault e
  | .refused e => .refused e

/-! ### Presenting one operation, for `State.withFetchWord` -/

/-- The engine as a host's boot leaves it (70_reset_and_hazards.md R1003) when the tables hold what
HT lists and INIT_CAPACITY was 1: RUN mode, one Empty slot. Log entry 11. -/
def bootMinimal (s : State) : State :=
  { s with mode := .run, capacity := 1, filled := 0, removed := 0, active := 0,
           bank0 := Memory.clearBelow 1 s.bank0, htw := BitVec.allOnes 2048 }

/-- What the command port needs to accept a command at the coming edge (30_encoding.md R302): RUN
mode and no response pending. -/
def readyForCommand (s : State) : State :=
  let s1 := if s.mode = .run then s else bootMinimal s
  { s1 with rspPending := false }

/-- The engine idle with `pw` presented, alone, at the coming edge. -/
def present (pw : PortWord) (s : State) : State :=
  let s1 := { s with dp := Datapath.idle, inputs := PortIn.ofWord pw :: s.inputs }
  match pw with
  | .cmd _ => readyForCommand s1
  | .reg _ => s1

/-- The numbered word presented; a number that is no word of a port changes nothing. -/
def presentNumbered (nbits w : Nat) (s : State) : State :=
  match portWordOf nbits w with
  | .ok pw => present pw s
  | .error _ => s

end Sys2Proof.Machine
end

