-- ==== Sys2Proof/Machine/Fsm.lean ====
section
/-! DEFINITION. `hashtable_control_fsm` by micro-steps (43_sequencer.md R720, 00_scope.md R15): each
turn of a pseudocode loop is one micro-step, and the loop's exit test belongs to its last turn. The
step uses it when the FSM is not idle; from IDLE a command or CTRL action runs whole, which R720
says comes to the same (log entries 1, 14). -/

namespace Sys2Proof.Machine

/-! ### Starting -/

/-- A command has transferred (42_commands.md R600): its op and key are latched. -/
def beginCommand (op : BitVec 2) (key : Word64) (s : State) : State :=
  { s with dp := { Datapath.idle with
      op := op, key := key, fsm := if op = opReserved then .respond else .hash } }

/-- COMPACT_NOW has been taken in RUN mode (44_register_ops.md R807). -/
def beginCompactNow (s : State) : State :=
  { s with dp := { Datapath.idle with ctrl := true, fsm := .compactScan } }

/-- START has passed its checks (44_register_ops.md R805). -/
def beginStart (s : State) : State :=
  { s with dp := { Datapath.idle with ctrl := true, fsm := .initClear } }

/-! ### Shared moves -/

/-- The FSM goes to `q`. -/
def goTo (q : FsmState) (s : State) : State := { s with dp := { s.dp with fsm := q } }

/-- A probe starts at `home`: OFF is 0, P is `home` (41_probe_cam.md R502). -/
def startProbe (home : Word32) (q : FsmState) (s : State) : State :=
  { s with dp := { s.dp with off := 0, pos := home, fsm := q } }

/-- The slot examined did not end the probe: OFF and P advance, or OFF has reached `c` and `miss`
says what follows (41_probe_cam.md R502). When the probe is over, with a slot or without, P stays at
the last slot examined, which after a full miss is `p(c-1)` while OFF is `c`: R502 says where P
stands at every step of a probe and not after it (DESIGN CHOICE, log entry 22). -/
def advanceProbe (c : Word32) (miss : State → State) (s : State) : State :=
  if s.dp.off + 1 = c then miss { s with dp := { s.dp with off := c } }
  else
    { s with dp := { s.dp with
        off := s.dp.off + 1, pos := if s.dp.pos + 1 = c then 0 else s.dp.pos + 1 } }

/-- The command's response from the datapath registers (42_commands.md R601 to R604). -/
def datapathResponse (s : State) : Response :=
  let d := s.dp
  if d.op = opReserved then reservedResponse d.key s
  else
    { op := d.op
      status := if d.found.isSome then .ok else .notFound
      ev := d.ev
      pos := d.found.getD notFoundPos
      home := d.home
      capAfter := s.capacity
      hash := d.hash
      key := d.key }

/-! ### The states -/

/-- HASH: H and home, and the probe starts (40_hash_engine.md R404, R405). -/
def microHash (s : State) : State :=
  let home := BitVec.ofNat 32 (s.homeOf s.dp.key s.capacity.toNat)
  startProbe home .probe
    { s with dp := { s.dp with hash := s.hash64 s.dp.key, home := home } }

/-- PROBE: one slot of the active bank (41_probe_cam.md R503, R504). The fault of a full miss is raised in
the last probe turn (DESIGN CHOICE, log entry 27). -/
def microProbe (s : State) : State :=
  let v := s.slot s.dp.pos.toNat
  let hit := { s with dp := { s.dp with found := some s.dp.pos } }
  if s.dp.op = opInsert then
    if v.isEmpty then goTo .write hit
    else advanceProbe s.capacity (raiseFault .probeFull s.dp.op s.dp.key) s
  else if v.holds s.dp.key then
    goTo (if s.dp.op = opLookup then .respond else .write) hit
  else if s.lookupEmptyStop && v.isEmpty then goTo .respond s
  else advanceProbe s.capacity (goTo .respond) s

/-- WRITE: the slot and the counters (42_commands.md R601, R603). -/
def microWrite (s : State) : State :=
  let p := (s.dp.found.getD 0).toNat
  if s.dp.op = opInsert then
    goTo .check { s.slotWrite s.active p (.occupied s.dp.key) with filled := s.filled + 1 }
  else
    goTo .check { s.slotWrite s.active p .tombstone with
                  removed := s.removed + 1, filled := s.filled - 1 }

/-- A rebuild starts with its clearing loop (43_sequencer.md R707). One register serves as its clear index
and its old-array scan index (DESIGN CHOICE, log entry 26). -/
def startRebuild (newCap : Word32) (s : State) : State :=
  { s with dp := { s.dp with newCap := newCap, index := 0, fsm := .rbClear } }

/-- CHECK: the comparators (43_sequencer.md R701 to R704). After a compaction REMOVED is 0, so a
second visit goes on to the shrink check. An event bit is set here, before the sequence it names runs;
R701 and R702 add it to their result after, and R114 does not say when the hidden bit is written (DESIGN
CHOICE, log entry 26). -/
def microCheck (s : State) : State :=
  if s.dp.op = opInsert then
    if s.growCond then
      if s.capMax < 2 * s.capacity.toNat then
        raiseFault .growOverflow s.dp.op s.dp.key s
      else
        startRebuild (BitVec.ofNat 32 (2 * s.capacity.toNat))
          { s with dp := { s.dp with ev := { s.dp.ev with grow := true } } }
    else goTo .respond s
  else if s.cleanCond then
    { s with dp := { s.dp with
        ev := { s.dp.ev with compact := true }, scan := 0, runStart := none, fsm := .compactScan } }
  else if s.shrinkCond && decide (1 < s.capacity.toNat) then
    startRebuild (BitVec.ofNat 32 (s.capacity.toNat / 2))
      { s with dp := { s.dp with ev := { s.dp.ev with shrink := true } } }
  else goTo .respond s

/-- The compaction scan goes on at `i` with run start `start`, or is over (43_sequencer.md R710). Over
inside a REMOVE, it leaves the scan index, the run start and the shift index as its last turn found them:
10_state.md R114 gives them no value then (DESIGN CHOICE, log entry 26). `REMOVED <- 0`, and COMPACT_NOW's
reply, belong to the last turn of the scan or of the shift (DESIGN CHOICE, log entry 27). -/
def scanAt (i : Word32) (start : Option Word32) (s : State) : State :=
  if i.toNat < s.capacity.toNat then
    { s with dp := { s.dp with scan := i, runStart := start, fsm := .compactScan } }
  else if s.dp.ctrl then { s with removed := 0, dp := Datapath.idle }.answer 0 false
  else { s with removed := 0, dp := { s.dp with fsm := .check } }

/-- COMPACT_SCAN: one turn of the outer loop (43_sequencer.md R710). -/
def microScan (s : State) : State :=
  let i := s.dp.scan
  match s.slot i.toNat with
  | .tombstone => scanAt (i + 1) (some (s.dp.runStart.getD i)) (s.slotWrite s.active i.toNat .empty)
  | .empty => scanAt (i + 1) s.dp.runStart s
  | .occupied _ =>
    match s.dp.runStart with
    | none => scanAt (i + 1) none s
    | some _ => { s with dp := { s.dp with shift := i, fsm := .compactShift } }

/-- COMPACT_SHIFT: one turn of the inner loop; the size of the gap is `scan - runStart`
(43_sequencer.md R710). -/
def microShift (s : State) : State :=
  let j := s.dp.shift
  let size := s.dp.scan.toNat - (s.dp.runStart.getD s.dp.scan).toNat
  let s1 := (s.slotWrite s.active (j.toNat - size) (s.slot j.toNat)).slotWrite s.active j.toNat .empty
  if (j + 1).toNat < s.capacity.toNat && (s1.slot (j + 1).toNat).isOccupied then
    { s1 with dp := { s1.dp with shift := j + 1 } }
  else scanAt (j + 1) none s1

/-- RB_CLEAR: one slot of the fresh array (43_sequencer.md R707). -/
def microClear (s : State) : State :=
  let s1 := s.slotWrite (1 - s.active) s.dp.index.toNat .empty
  if s.dp.index + 1 = s.dp.newCap then { s1 with dp := { s1.dp with index := 0, fsm := .rbScan } }
  else { s1 with dp := { s1.dp with index := s1.dp.index + 1 } }

/-- The old-array scan of a rebuild goes on, or the commit follows, the index then staying at the last old
slot (43_sequencer.md R707; DESIGN CHOICE, log entry 26). -/
def nextOldSlot (s : State) : State :=
  if s.dp.index + 1 = s.capacity then goTo .rbCommit s
  else { s with dp := { s.dp with index := s.dp.index + 1, fsm := .rbScan } }

/-- RB_SCAN: one slot of the old array; the turn that meets a key starts its placement probe
(43_sequencer.md R707; log entry 26). -/
def microRebuildScan (s : State) : State :=
  match s.slot s.dp.index.toNat with
  | .occupied k =>
    startProbe (BitVec.ofNat 32 (s.homeOf k s.dp.newCap.toNat)) .rbPlace
      { s with dp := { s.dp with placeKey := k } }
  | .empty => nextOldSlot s
  | .tombstone => nextOldSlot s

/-- RB_PLACE: one slot of the fresh array (43_sequencer.md R707, 41_probe_cam.md R503). The turn that finds
the slot writes it, and the fault of a full miss is raised in the last turn (DESIGN CHOICE, log entry
27). -/
def microPlace (s : State) : State :=
  let nb := 1 - s.active
  if (s.slotRead nb s.dp.pos.toNat).isEmpty then
    nextOldSlot (s.slotWrite nb s.dp.pos.toNat (.occupied s.dp.placeKey))
  else advanceProbe s.dp.newCap (raiseFault .shrinkOverflow s.dp.op s.dp.key) s

/-- RB_COMMIT (43_sequencer.md R707). -/
def microCommit (s : State) : State :=
  goTo .respond { s with active := 1 - s.active, capacity := s.dp.newCap, removed := 0 }

/-- INIT_CLEAR: one slot of START's clearing, and in the last turn START's commit and reply
(44_register_ops.md R805; DESIGN CHOICE, log entry 27). -/
def microInitClear (s : State) : State :=
  let s1 := s.slotWrite 0 s.dp.index.toNat .empty
  if s.dp.index + 1 = s.initCapacity then
    { s1 with active := 0, capacity := s1.initCapacity, filled := 0, removed := 0, mode := .run,
              dp := Datapath.idle }.answer 0 false
  else { s1 with dp := { s1.dp with index := s1.dp.index + 1 } }

/-- One micro-step of `hashtable_control_fsm` (43_sequencer.md R720). -/
def microStep (s : State) : State :=
  match s.dp.fsm with
  | .idle => s
  | .hash => microHash s
  | .probe => microProbe s
  | .write => microWrite s
  | .check => microCheck s
  | .compactScan => microScan s
  | .compactShift => microShift s
  | .rbClear => microClear s
  | .rbScan => microRebuildScan s
  | .rbPlace => microPlace s
  | .rbCommit => microCommit s
  | .initClear => microInitClear s
  | .respond => respond (datapathResponse s) s

/-- `n` micro-steps; an idle FSM stays as it is. -/
def microSteps : Nat → State → State
  | 0, s => s
  | n + 1, s => microSteps n (microStep s)

/-- The bound of 43_sequencer.md R721 for a command that starts at capacity `c`. -/
def microBound (c : Nat) : Nat := 3 * c * c + 6 * c + 2

/-- An edge while the FSM is not idle: one micro-step. Neither request port is served
(20_memory.md R211), the response port is (30_encoding.md R304); the edge has passed for all of them
(log entry 8). A response that transfers here was placed before the micro-step. Every micro-step but
START's clearing works on the table, which needs its capacity (42_commands.md R600). -/
def microEdge (s : State) : Answer :=
  if s.dp.fsm = .initClear || s.capacityInRange then .next (microStep (takeResponse s).advance)
  else .fault .capacityOutOfRange

end Sys2Proof.Machine
end

