-- ==== Sys2Proof/Machine/Step.lean ====
section
/-! DEFINITION. One step: one rising edge of clk, with the whole transaction the engine starts there
(20_memory.md R210, 43_sequencer.md R720). -/

namespace Sys2Proof.Machine

/-- One step of the engine. -/
def step (s : State) : Host.Outcome State Fault Refusal :=
  match s.edge with
  | .hardReset => .next (hardwareReset s.advance)
  | .microStep => microEdge s
  | .register i => exec i s.advance
  | .registerThenHandOver i => andThen (exec i s.advance.nextFree) handOver
  | .handOverThenRegister i => exec i (handOver s.advance.nextFree)
  | .handOver => .next (handOver s.advance)
  | .command i => exec i s.advance
  | .nothing => .next s.advance

/-- `s` with the operation of the numbered word presented at the coming edge, and for a command the
engine in the state that accepts one. -/
def State.withFetchWord (s : State) (nbits w : Nat) : State := presentNumbered nbits w s

end Sys2Proof.Machine
end

