-- ==== Sys2Proof/Safety.lean ====
section
/-! DEFINITION. What counts as a sound state and a safe run: the invariants the spec states between
transactions (10_state.md R102, R105, R107, R110, R112; 60_exceptions.md R900, R904). -/

namespace Sys2Proof.Machine

/-- How many of the slots 0..c-1 of a bank satisfy `p`. -/
def countSlots (p : Slot → Bool) (m : Memory Slot) (c : Nat) : Nat :=
  (List.range c).countP fun i => p (Memory.read .empty m i)

/-- The keys of the Occupied slots 0..c-1 of a bank, along increasing index. -/
def keysOf (m : Memory Slot) (c : Nat) : List Word64 :=
  (List.range c).filterMap fun i =>
    match Memory.read .empty m i with
    | .occupied k => some k
    | .empty => none
    | .tombstone => none

/-- The active bank. -/
abbrev State.table (s : State) : Memory Slot := s.bank s.active

/-- A build the spec allows (00_scope.md R8). -/
def State.buildLegal (s : State) : Prop := 1 ≤ s.capMax ∧ s.capMax ≤ capacityLimit
  deriving Decidable

/-- Every storage is in its canonical form and lists only what exists (20_memory.md R200). -/
def State.storageLegal (s : State) : Prop :=
  Memory.wf 0 s.ht ∧ (∀ e ∈ s.ht, e.1 < 2048)
    ∧ Memory.wf .empty s.bank0 ∧ (∀ e ∈ s.bank0, e.1 < s.capMax)
    ∧ Memory.wf .empty s.bank1 ∧ (∀ e ∈ s.bank1, e.1 < s.capMax)
  deriving Decidable

/-- In CONFIG the table does not exist: CAPACITY is 0 (10_state.md R105), and with it what SOFT_RESET
and hardware reset set (R140). -/
def State.configLegal (s : State) : Prop :=
  s.capacity = 0 ∧ s.filled = 0 ∧ s.removed = 0 ∧ s.active = 0 ∧ s.rspPending = false
  deriving Decidable

/-- What START checked and nothing changes afterwards (44_register_ops.md R805, 60_exceptions.md
R911). -/
def State.startedLegal (s : State) : Prop :=
  s.tablesComplete = true ∧ 1 ≤ s.initCapacity.toNat ∧ s.initCapacity.toNat ≤ s.capMax
    ∧ 1 ≤ s.growThr.toNat ∧ s.growThr.toNat ≤ 65536 ∧ s.shrinkThr.toNat ≤ 65535
  deriving Decidable

/-- The invariants of 10_state.md R110: CAPACITY in 1..CAP_MAX, FILLED and REMOVED count the Occupied
slots and the Tombstones of the table. -/
def State.tableLegal (s : State) : Prop :=
  s.capacityInRange = true
    ∧ s.filled.toNat = countSlots Slot.isOccupied s.table s.capacity.toNat
    ∧ s.removed.toNat = countSlots Slot.isTomb s.table s.capacity.toNat
  deriving Decidable

/-- The fault record is set exactly in FAULT mode, with the op code its cause belongs to, and no
response is pending there (60_exceptions.md R900, R903, R904). -/
def State.faultLegal (s : State) : Prop :=
  (s.mode ≠ .fault → s.faultCause = .none ∧ s.faultOp = 0 ∧ s.faultKey = 0)
    ∧ (s.mode = .fault → s.faultCause ≠ .none ∧ s.rspPending = false)
    ∧ (s.faultCause = .probeFull → s.faultOp = opInsert)
    ∧ (s.faultCause = .growOverflow → s.faultOp = opInsert)
    ∧ (s.faultCause = .shrinkOverflow → s.faultOp = opRemove)
  deriving Decidable

/-- A pending response carries a position exactly when its status is OK (30_encoding.md R306). -/
def State.responseLegal (s : State) : Prop :=
  s.rspPending = true → (s.rsp.pos = notFoundPos ↔ s.rsp.status ≠ .ok)
  deriving Decidable

/-- A sound state between transactions. -/
def State.Sound (s : State) : Prop :=
  s.buildLegal ∧ s.storageLegal ∧ s.dp = Datapath.idle
    ∧ (s.mode = .config → s.configLegal)
    ∧ (s.mode ≠ .config → s.startedLegal ∧ s.tableLegal)
    ∧ s.faultLegal ∧ s.responseLegal
  deriving Decidable

/-- A state in which a command presented transfers and every rule of 42_commands.md may start: RUN
mode, no response pending, the FSM idle, `1 <= CAPACITY <= CAP_MAX` (30_encoding.md R302,
42_commands.md R600). -/
def State.Accepting (s : State) : Prop :=
  s.mode = .run ∧ s.rspPending = false ∧ s.dp.fsm = .idle
    ∧ 1 ≤ s.capacity.toNat ∧ s.capacity.toNat ≤ s.capMax
  deriving Decidable

/-- In the probe order of 41_probe_cam.md R501, from `home` at capacity `c`, the slot at offset `off`
is the first with `q`. -/
def FirstAt (q : Slot → Bool) (m : Memory Slot) (home c off : Nat) : Prop :=
  off < c ∧ q (Memory.read .empty m ((home + off) % c)) = true
    ∧ ∀ o < off, q (Memory.read .empty m ((home + o) % c)) = false

/-- No slot that a probe from `home` at capacity `c` examines has `q`. -/
def NowhereIn (q : Slot → Bool) (m : Memory Slot) (home c : Nat) : Prop :=
  ∀ o < c, q (Memory.read .empty m ((home + o) % c)) = false

/-- A slot that ends a key probe: it holds the key, or it is Empty and the build stops there
(41_probe_cam.md R504). -/
def endsKeyProbe (stopAtEmpty : Bool) (k : Word64) (v : Slot) : Bool :=
  v.holds k || (stopAtEmpty && v.isEmpty)

/-- Every slot of both banks but slot `p` of bank `b` reads the same in both states. -/
def SlotsAgreeExcept (b : BitVec 1) (p : Nat) (s t : State) : Prop :=
  ∀ b' i, (b' ≠ b ∨ i ≠ p) → t.slotRead b' i = s.slotRead b' i

/-- The home index of a key (40_hash_engine.md R405). -/
def State.homeIndex (s : State) (k : Word64) : Nat := (s.hash64 k).toNat % s.capacity.toNat

/-- PROBE_FREE from the home index of `k` ends at slot `p`, the first Empty one
(41_probe_cam.md R503). -/
def EmptyFoundAt (s : State) (k : Word64) (p : Nat) : Prop :=
  ∃ off, FirstAt Slot.isEmpty s.table (s.homeIndex k) s.capacity.toNat off
    ∧ p = (s.homeIndex k + off) % s.capacity.toNat

/-- No slot of the table is Empty (70_reset_and_hazards.md R1004). -/
def NoEmptySlot (s : State) : Prop := ∀ i < s.capacity.toNat, s.slot i ≠ .empty

/-- PROBE_KEY finds `k` at slot `p`, the first copy in probe order; a build that stops at an Empty
slot has met none before it (41_probe_cam.md R504). -/
def KeyFoundAt (s : State) (k : Word64) (p : Nat) : Prop :=
  ∃ off, FirstAt (endsKeyProbe s.lookupEmptyStop k) s.table (s.homeIndex k) s.capacity.toNat off
    ∧ p = (s.homeIndex k + off) % s.capacity.toNat ∧ s.slot p = .occupied k

/-- PROBE_KEY does not find `k`: every slot was examined, or a build that stops at an Empty slot has
met one (41_probe_cam.md R504). -/
def KeyNotFound (s : State) (k : Word64) : Prop :=
  NowhereIn (endsKeyProbe s.lookupEmptyStop k) s.table (s.homeIndex k) s.capacity.toNat
    ∨ ∃ off, FirstAt (endsKeyProbe s.lookupEmptyStop k) s.table (s.homeIndex k) s.capacity.toNat off
        ∧ s.slot ((s.homeIndex k + off) % s.capacity.toNat) = .empty

/-- `t` is `s` after one slot write and nothing else: slot `p` of the active bank holds `v`, every
other slot of either bank reads as before. -/
def WritesSlot (p : Nat) (v : Slot) (s t : State) : Prop :=
  t = { s with bank0 := t.bank0, bank1 := t.bank1 }
    ∧ t.slotRead s.active p = v ∧ SlotsAgreeExcept s.active p s t

/-- Slots g..b-1 are a gap g..a-1 without an Occupied slot and the run a..b-1 of Occupied slots after
it, both as long as they can be; at the end of the table the run may be missing. -/
def GapAndRun (s : State) (g a b : Nat) : Prop :=
  g ≤ a ∧ a ≤ b ∧ b ≤ s.capacity.toNat
    ∧ (g = 0 ∨ (g < a ∧ (s.slot (g - 1)).isOccupied = true))
    ∧ (∀ i < a, g ≤ i → (s.slot i).isOccupied = false)
    ∧ (∀ i < b, a ≤ i → (s.slot i).isOccupied = true)
    ∧ (b = s.capacity.toNat ∨ (a < b ∧ (s.slot b).isOccupied = false))

/-- Each of the listed keys has a place of its own among slots 0..n-1 of `t`, and the rest of these
slots are Empty: `pos j` is the place of key `j`, reached from its hash modulo `n` over places of keys
earlier in the list (43_sequencer.md R708). -/
def PlacedInOrder (hash : Word64 → Word64) (keys : List Word64) (n : Nat) (t : State)
    (pos : Nat → Nat) : Prop :=
  (∀ j, (h : j < keys.length) → pos j < n ∧ t.slot (pos j) = .occupied keys[j]
      ∧ ∃ off < n, pos j = ((hash keys[j]).toNat % n + off) % n
        ∧ ∀ o < off, ∃ i < j, pos i = ((hash keys[j]).toNat % n + o) % n)
    ∧ (∀ i < keys.length, ∀ j < keys.length, pos i = pos j → i = j)
    ∧ (∀ p < n, (∀ j < keys.length, pos j ≠ p) → t.slot p = .empty)

/-- Two states that a host cannot tell apart now: equal but for slots outside the table
(10_state.md R108). -/
def SameView (s t : State) : Prop :=
  t = { s with bank0 := t.bank0, bank1 := t.bank1 }
    ∧ ∀ i < s.capacity.toNat, t.slot i = s.slot i

/-- `RD a` replies `d` with reg_err `e` and does nothing else. The next state holds the reply (log entry
25). -/
def ReadGives (s : State) (a : BitVec 8) (d : Word64) (e : Bool) : Prop :=
  ∀ w : Word64, exec (.rd a w) s = .next { s with reply := some ⟨d, e⟩ }

/-- A register transaction is refused: reg_err = 1, read data 0, no state change
(44_register_ops.md R800). -/
def IsRefused (i : Instr) (s : State) : Prop :=
  exec i s = .next { s with reply := some ⟨0, true⟩ }

/-- A safe answer: a next state, and a sound one. -/
def SafeAnswer (r : Answer) : Prop := ∃ t, r = .next t ∧ t.Sound

end Sys2Proof.Machine
end

