-- ==== Sys2Proof/Certificates/Slice0/Obligations.lean ====
section
/-! DEFINITION. The statements for the provers. Each formalises rules of spec/ about one operation, one
port or the whole machine; the vocabulary is that of Sys2Proof/Safety.lean. Two conventions of the model run
through them: a finished command leaves `dp := Datapath.idle` (log entry 6), and the state after an edge
holds the register reply of that edge (log entry 25). A command or CTRL action is one transition (43_sequencer.md
R720, log entry 1) except in the statements on micro-steps. -/

section

open Sys2Proof Sys2Proof.Machine

/-! ### Reset -/

/-- The values right after reset that 10_state.md R140 gives, and the output ports of
70_reset_and_hazards.md R1000. -/
def Obligations.ResetHasTheStatedValues : Prop :=
  State.reset.mode = .config ∧ State.reset.initCapacity = 0
    ∧ State.reset.growThr = 49152 ∧ State.reset.shrinkThr = 16384
    ∧ State.reset.capacity = 0 ∧ State.reset.filled = 0 ∧ State.reset.removed = 0
    ∧ State.reset.htw = 0 ∧ State.reset.active = 0 ∧ State.reset.rspPending = false
    ∧ State.reset.faultCause = .none ∧ State.reset.faultOp = 0 ∧ State.reset.faultKey = 0
    ∧ State.reset.htIndex = 0 ∧ State.reset.slotIndex = 0 ∧ State.reset.dp.fsm = .idle
    ∧ State.reset.outputs.cmdReady = false ∧ State.reset.outputs.rspValid = false
    ∧ State.reset.outputs.regReply = none ∧ State.reset.outputs.busy = false
    ∧ State.reset.outputs.fault = false

/-- 70_reset_and_hazards.md R1000: rst at an edge, whatever else is driven and whatever the engine was
doing. That the edge uses up the host's sample is the model's choice (log entry 8), and so is where the
outputs show reg_ack (log entry 25). That rst falls between transitions or micro-steps is deduced from R1000
(log entry 13). -/
def Obligations.RstSetsEveryElement : Prop :=
  ∀ s : State, s.pins.rst = true →
    ∃ t, step s = .next t
      ∧ t.mode = .config ∧ t.initCapacity = 0 ∧ t.growThr = 49152 ∧ t.shrinkThr = 16384
      ∧ t.capacity = 0 ∧ t.filled = 0 ∧ t.removed = 0
      ∧ t.htw = 0 ∧ t.tablesComplete = false ∧ t.active = 0 ∧ t.rspPending = false
      ∧ t.faultCause = .none ∧ t.faultOp = 0 ∧ t.faultKey = 0
      ∧ t.htIndex = 0 ∧ t.slotIndex = 0 ∧ t.dp.fsm = .idle
      ∧ t.outputs.cmdReady = false ∧ t.outputs.rspValid = false ∧ t.outputs.regReply = none
      ∧ t.outputs.busy = false ∧ t.outputs.fault = false
      ∧ t.capMax = s.capMax ∧ t.lookupEmptyStop = s.lookupEmptyStop ∧ t.inputs = s.inputs.tail

/-! ### Invariants -/

/-- The state after reset is sound. -/
def Obligations.ResetIsSound : Prop := State.reset.Sound

/-- From every sound state, whatever is driven, the next state is sound: CAPACITY in range, the counters
count, the storages canonical, the fault record and the pending response as their rules say. -/
def Obligations.StepKeepsSound : Prop := ∀ s t : State, s.Sound → step s = .next t → t.Sound

/-- A sound state always has a next state: no model fault and no refusal (42_commands.md R605). -/
def Obligations.SoundStatesNeverStop : Prop := ∀ s : State, s.Sound → ∃ t, step s = .next t

/-- Every operation, the internal ones included, keeps HT and the banks in canonical form and inside
their index ranges, from every state, however wrong its counters are. -/
def Obligations.EveryOperationKeepsTheStorages : Prop :=
  ∀ (i : Instr) (s t : State), s.storageLegal → exec i s = .next t → t.storageLegal

/-- 60_exceptions.md R911, 10_state.md R106: outside CONFIG mode no operation changes the tables or the
configuration; and no operation changes a build parameter (00_scope.md R8, R9) or what the host is
about to drive, which is a field of the model's own (log entry 8). -/
def Obligations.TablesAndConfigurationAreLocked : Prop :=
  ∀ (i : Instr) (s t : State), exec i s = .next t →
    t.capMax = s.capMax ∧ t.lookupEmptyStop = s.lookupEmptyStop ∧ t.inputs = s.inputs
      ∧ (s.mode ≠ .config →
          t.ht = s.ht ∧ t.htw = s.htw ∧ t.initCapacity = s.initCapacity
            ∧ t.growThr = s.growThr ∧ t.shrinkThr = s.shrinkThr)

/-- 10_state.md R102: what may change MODE. -/
def Obligations.ModeChangesOnlyAsListed : Prop :=
  ∀ s t : State, s.dp.fsm = .idle → step s = .next t → t.mode ≠ s.mode →
    (s.pins.rst = true ∧ t.mode = .config)
    ∨ (s.mode = .config ∧ t.mode = .run ∧ ∃ w, s.pins.reg = some w ∧ decode (.reg w) = .start)
    ∨ (t.mode = .config ∧ ∃ w, s.pins.reg = some w ∧ decode (.reg w) = .softReset)
    ∨ (s.mode = .run ∧ t.mode = .fault ∧ ∃ w k, s.pins.reg = none ∧ s.pins.cmd = some w
        ∧ (decode (.cmd w) = .insert k ∨ decode (.cmd w) = .remove k))

/-- 60_exceptions.md R905, R906, 10_state.md R102: in FAULT mode cmd_ready is 0, and without rst and
SOFT_RESET a step changes nothing but SLOT_INDEX, the register reply and the model's own fields, and
RSP_PENDING only by a transfer, which clears it. That the edge uses up the host's sample is the model's
choice (log entry 8). -/
def Obligations.FaultModeIsLeftOnlyByReset : Prop :=
  ∀ s t : State, s.mode = .fault → s.dp.fsm = .idle → s.pins.rst = false →
    (∀ w, s.pins.reg = some w → decode (.reg w) ≠ .softReset) → step s = .next t →
    s.outputs.cmdReady = false ∧ t.outputs.cmdReady = false
      ∧ t = { s with slotIndex := t.slotIndex, reply := t.reply,
                     rspPending := s.rspPending && !s.pins.rspReady,
                     inputs := s.inputs.tail, freeCtr := t.freeCtr }

/-- 10_state.md R108: slots outside the table can never be observed. Two sound states that agree but for
them stay so, with the same outputs, whatever is driven. -/
def Obligations.SlotsOutsideTheTableDoNotMatter : Prop :=
  ∀ s t s' : State, s.Sound → t.Sound → SameView s t → step s = .next s' →
    ∃ t', step t = .next t' ∧ SameView s' t' ∧ s'.outputs = t'.outputs

/-! ### Encodings -/

/-- Decoding the word of a well-formed operation gives the operation back (30_encoding.md R303, R308,
R315). That RD and the refused writes have WDATA as an operand is the model's (log entry 16), and so is one
constructor for each row of the opcode table (log entry 20). -/
def Obligations.DecodeOfEncode : Prop :=
  ∀ i : Instr, i.wellFormed = true → ∀ w, encode i = some w → decode w = i

/-- Every word of either port is the word of one well-formed operation (30_encoding.md R316,
44_register_ops.md R800). That no bit of a word is dropped, so that a read with WDATA other than 0, which
R308's encodings do not write, encodes to itself again, is the model's: RD and the refused writes carry
WDATA as an operand (log entry 16). -/
def Obligations.EncodeOfDecode : Prop :=
  ∀ w : PortWord, (decode w).wellFormed = true ∧ encode (decode w) = some w

/-- The opcode map of 30_encoding.md R315 for the words of both ports. -/
def Obligations.WordsFollowTheOpcodeMap : Prop :=
  (∀ k : Word64,
      (decode (.cmd (0b00#2 ++ k))).mnemonic = "INSERT"
      ∧ (decode (.cmd (0b01#2 ++ k))).mnemonic = "LOOKUP"
      ∧ (decode (.cmd (0b10#2 ++ k))).mnemonic = "REMOVE"
      ∧ (decode (.cmd (0b11#2 ++ k))).mnemonic = "CMD_RESERVED")
  ∧ ∀ (a : BitVec 8) (d : Word64),
      (decode (.reg (0b0#1 ++ a ++ d))).mnemonic = "RD"
      ∧ (decode (.reg (0b1#1 ++ a ++ d))).mnemonic =
          if a = 0x04 ∨ a = 0x05 ∨ a = 0x06 ∨ a = 0x0B then "WR_CFG"
          else if a = 0x0C then "WR_HT_DATA"
          else if a = 0x0D then "WR_SLOT_INDEX"
          else if a = 0x00 then
            if d = 0x1 then "START" else if d = 0x2 then "SOFT_RESET"
            else if d = 0x4 then "COMPACT_NOW" else "WR_CTRL"
          else "WR_REFUSED"

/-- Words the spec writes out (95_test_vectors.md section 3 and V-RG5) decode to their lines. The operands
of RD and of a refused write are the model's (log entries 16 and 20). -/
def Obligations.SpecWordsDecode : Prop :=
  decode (.cmd 0x0000000000000000A) = .insert 10
    ∧ decode (.cmd 0x1000000000000000A) = .lookup 10
    ∧ decode (.cmd 0x2000000000000000A) = .remove 10
    ∧ decode (.cmd 0x30000000000000005) = .cmdReserved 5
    ∧ decode (.cmd 0x0FFFFFFFFFFFFFFFF) = .insert (bits64 (-1))
    ∧ decode (.reg 0x0010000000000000000) = .rd 0x01 0
    ∧ decode (.reg 0x1040000000000000004) = .wrInitCapacity 4
    ∧ decode (.reg 0x1000000000000000001) = .start
    ∧ decode (.reg 0x1000000000000000002) = .softReset
    ∧ decode (.reg 0x1000000000000000004) = .compactNow
    ∧ decode (.reg 0x10C00000000000000AB) = .wrHtData 0xAB
    ∧ decode (.reg 0x10B0000000000000000) = .wrHtIndex 0
    ∧ decode (.reg 0x10D0000000000000004) = .wrSlotIndex 4
    ∧ decode (.reg 0x1090000000000000000) = .wrRefused08 1 0
    ∧ decode (.reg 0x1000000000000000003) = .wrCtrl 3

/-- `rsp_data` by the bit ranges of 30_encoding.md R306, STATUS with the codes of R305. -/
def Obligations.RspDataLayout : Prop :=
  ∀ r : Response,
    r.pack.extractLsb' 0 2 = r.op
      ∧ (r.pack.extractLsb' 2 2 =
          match r.status with
          | .ok => 0b00
          | .notFound => 0b01
          | .illegal => 0b10)
      ∧ r.pack.getLsbD 4 = r.ev.compact ∧ r.pack.getLsbD 5 = r.ev.shrink
      ∧ r.pack.getLsbD 6 = r.ev.grow ∧ r.pack.getLsbD 7 = false
      ∧ r.pack.extractLsb' 8 32 = r.pos ∧ r.pack.extractLsb' 40 32 = r.home
      ∧ r.pack.extractLsb' 72 32 = r.capAfter ∧ r.pack.extractLsb' 104 64 = r.hash
      ∧ r.pack.extractLsb' 168 64 = r.key

/-! ### Ports and steps -/

/-- A step at an idle engine runs the decoded operation of the word presented, the register port before
the command port (20_memory.md R210, R211), as one transition (log entry 1), and adds only: the edge has passed, and a response that
transfers at the same edge. The model's choices: the edge uses up the host's sample, even where a command
presented is not accepted (log entry 8); which of a register transaction and a hand-over at one edge comes
first is a free value, whose use the counter `freeCtr` counts (log entries 3 and 9); the state after the
edge shows the reply, and the reply of an earlier edge is gone (log entry 25). -/
def Obligations.StepRunsTheDecodedOperation : Prop :=
  ∀ s : State, s.pins.rst = false → s.dp.fsm = .idle →
    let a : State := { s with inputs := s.inputs.tail, reply := none }
    let transfers : Bool := s.rspPending && s.pins.rspReady
    (∀ w, s.pins.reg = some w → transfers = false → step s = exec (decode (.reg w)) a)
    ∧ (∀ w, s.pins.reg = some w → transfers = true →
        step s = exec (decode (.reg w)) { a with rspPending := false, freeCtr := s.freeCtr + 1 }
        ∨ ∀ t, exec (decode (.reg w)) { a with freeCtr := s.freeCtr + 1 } = .next t →
            step s = .next { t with rspPending := false })
    ∧ (∀ w, s.pins.reg = none → transfers = false → s.pins.cmd = some w →
        step s = exec (decode (.cmd w)) a)
    ∧ (s.pins.reg = none → transfers = true → step s = .next { a with rspPending := false })
    ∧ (s.pins.reg = none → transfers = false → s.pins.cmd = none → step s = .next a)

/-- 30_encoding.md R302: when `cmd_ready` is 1; and the four commands at an engine that accepts none,
because of its mode, because it is busy or because a response is pending. That exec of such a command
answers the state unchanged is deduced from R302, log entry 18. -/
def Obligations.CommandsWaitForCmdReady : Prop :=
  (∀ s : State, s.outputs.cmdReady = true ↔
      s.mode = .run ∧ s.dp.fsm = .idle ∧ s.rspPending = false ∧ s.pins.reg = none)
  ∧ ∀ (k : Word64) (s : State), s.mode ≠ .run ∨ s.dp.fsm ≠ .idle ∨ s.rspPending = true →
      exec (.insert k) s = .next s ∧ exec (.lookup k) s = .next s
        ∧ exec (.remove k) s = .next s ∧ exec (.cmdReserved k) s = .next s

/-- 30_encoding.md R304: `rsp_valid`, `rsp_data`, the transfer, at an idle edge and while a CTRL action
runs by micro-steps, and that a pending response stays as it is until the transfer, a SOFT_RESET (served
when idle) or a hardware reset. A command never runs with a response pending (R302). -/
def Obligations.PendingResponseIsKept : Prop :=
  ∀ s : State, s.outputs.rspValid = s.rspPending ∧ s.outputs.rspData = s.rsp.pack
    ∧ (s.rspPending = true →
        s.dp.fsm = .idle ∨ s.dp.fsm = .compactScan ∨ s.dp.fsm = .compactShift
          ∨ s.dp.fsm = .initClear →
        ∀ t, step s = .next t →
        (s.pins.rst = false → s.pins.rspReady = true → t.rspPending = false)
        ∧ (s.pins.rst = false → s.pins.rspReady = false →
            (s.dp.fsm = .idle → ∀ w, s.pins.reg = some w → decode (.reg w) ≠ .softReset) →
            t.rspPending = true ∧ t.rsp = s.rsp))

/-- 20_memory.md R211, 30_encoding.md R304, 43_sequencer.md R720: while the FSM is not idle neither request
port is served, a response may transfer, and reg_ack comes only with the end of a CTRL action. That such
an edge is one micro-step is the model's granularity (log entry 14); that it uses up the host's sample of
the edge, a request not served being driven again, is the model's choice (log entry 8), and so is that the
state after an edge shows its reply (log entry 25) and that the last turn of a CTRL action's loop gives it
(log entry 27). -/
def Obligations.BusyEngineServesNoPort : Prop :=
  ∀ s : State, s.pins.rst = false → s.dp.fsm ≠ .idle →
    s.dp.fsm = .initClear ∨ (1 ≤ s.capacity.toNat ∧ s.capacity.toNat ≤ s.capMax) →
    s.outputs.busy = true ∧ s.outputs.cmdReady = false
      ∧ ∃ t, step s = .next t
        ∧ t = microStep { s with rspPending := s.rspPending && !s.pins.rspReady, reply := none,
                                 inputs := s.inputs.tail }
        ∧ t.inputs = s.inputs.tail
        ∧ (t.reply ≠ none → t.dp.fsm = .idle ∧ t.reply = some ⟨0, false⟩)

/-! ### Hash -/

/-- 40_hash_engine.md R404, on tables that are complete, as they are whenever a command hashes. -/
def Obligations.HashIsTheXorOfEightEntries : Prop :=
  ∀ (k : Word64) (s : State), s.tablesComplete = true →
    let entry (t : Nat) (b : BitVec 8) : Word64 := Memory.read 0 s.ht (t * 256 + b.toNat)
    s.hash64 k = entry 0 (k.extractLsb 63 56) ^^^ entry 1 (k.extractLsb 55 48)
      ^^^ entry 2 (k.extractLsb 47 40) ^^^ entry 3 (k.extractLsb 39 32)
      ^^^ entry 4 (k.extractLsb 31 24) ^^^ entry 5 (k.extractLsb 23 16)
      ^^^ entry 6 (k.extractLsb 15 8) ^^^ entry 7 (k.extractLsb 7 0)

/-- 40_hash_engine.md R408: keys that differ only in the bytes of the lanes `L`. -/
def Obligations.HashIsLinearInTheLanes : Prop :=
  ∀ (s : State) (k1 k2 : Word64) (L : List Nat),
    (∀ i < 8, i ∉ L → keyByte k1 i = keyByte k2 i) →
    s.hash64 k1 ^^^ s.hash64 k2
      = (List.range 8).foldl
          (fun acc i => if i ∈ L then acc ^^^ (s.lane k1 i ^^^ s.lane k2 i) else acc) 0

/-! ### Internal operations that read -/

/-- HASH, PROBE_FREE and PROBE_KEY run on their own answer as 40_hash_engine.md R404 and 41_probe_cam.md
R503, R504 say; HASH writes no state (R404), and a probe no slot and no counter (R505). The rest is the
model's choice: that the result is latched in the sub-blocks' output registers, log entry 7; that a probe
leaves P (`dp.pos`) as it was, log entry 22; that PROBE_KEY answers for every `cap` in 1..CAP_MAX, where
R504 fixes C = CAPACITY, log entry 23. -/
def Obligations.HashAndProbesLatchTheirResult : Prop :=
  (∀ (k : Word64) (s : State),
      exec (.hash k) s = .next { s with dp := { s.dp with hash := s.hash64 k } })
  ∧ (∀ (b : BitVec 1) (home cap : Word32) (s : State), 1 ≤ cap.toNat → cap.toNat ≤ s.capMax →
      home.toNat < cap.toNat →
      (∀ off, FirstAt Slot.isEmpty (s.bank b) home.toNat cap.toNat off →
        exec (.probeFree b home cap) s = .next { s with dp := { s.dp with
          found := some (BitVec.ofNat 32 ((home.toNat + off) % cap.toNat)),
          off := BitVec.ofNat 32 off } })
      ∧ (NowhereIn Slot.isEmpty (s.bank b) home.toNat cap.toNat →
        exec (.probeFree b home cap) s = .next { s with dp := { s.dp with
          found := none, off := cap } }))
  ∧ ∀ (home cap : Word32) (k : Word64) (s : State), 1 ≤ cap.toNat → cap.toNat ≤ s.capMax →
      home.toNat < cap.toNat →
      (∀ off, FirstAt (endsKeyProbe s.lookupEmptyStop k) s.table home.toNat cap.toNat off →
        exec (.probeKey home cap k) s = .next { s with dp := { s.dp with
          found :=
            if s.slot ((home.toNat + off) % cap.toNat) = .occupied k then
              some (BitVec.ofNat 32 ((home.toNat + off) % cap.toNat))
            else none,
          off := BitVec.ofNat 32 off } })
      ∧ (NowhereIn (endsKeyProbe s.lookupEmptyStop k) s.table home.toNat cap.toNat →
        exec (.probeKey home cap k) s = .next { s with dp := { s.dp with
          found := none, off := cap } })

/-- 41_probe_cam.md R506: what a probe that found a position found there; and a build that does not stop
at Empty slots finds a key exactly when the table holds it. -/
def Obligations.FoundPositionHoldsTheKey : Prop :=
  ∀ (m : Memory Slot) (home c p : Nat) (k : Word64),
    (∀ stop, (probeKey stop m home c k).found = some p → Memory.read .empty m p = .occupied k)
    ∧ ((probeFree m home c).found = some p → Memory.read .empty m p = .empty)
    ∧ (home < c → ((probeKey false m home c k).found = none
        ↔ ∀ i < c, Memory.read .empty m i ≠ .occupied k))

/-- In an accepting state the model's probes from the home index of a key answer exactly what the
vocabulary of the command statements says of the slots: `probeKey` finds a position if and only if it is
that of the first copy, and none if and only if the key is not found; `probeFree` likewise for the first
Empty slot and a table without one. Each has exactly one of its outcomes, so the cases of the command
statements leave nothing out and do not overlap (41_probe_cam.md R501 to R504). -/
def Obligations.EveryProbeHasOneOutcome : Prop :=
  ∀ (k : Word64) (s : State), s.Accepting →
    let c := s.capacity.toNat
    let home := (s.hash64 k).toNat % c
    (∀ p, (probeKey s.lookupEmptyStop s.table home c k).found = some p ↔ KeyFoundAt s k p)
      ∧ ((probeKey s.lookupEmptyStop s.table home c k).found = none ↔ KeyNotFound s k)
      ∧ (∀ p, (probeFree s.table home c).found = some p ↔ EmptyFoundAt s k p)
      ∧ ((probeFree s.table home c).found = none ↔ NoEmptySlot s)
      ∧ ((∃ p, KeyFoundAt s k p) ↔ ¬ KeyNotFound s k) ∧ ((∃ p, EmptyFoundAt s k p) ↔ ¬ NoEmptySlot s)
      ∧ (∀ p q, KeyFoundAt s k p → KeyFoundAt s k q → p = q)
      ∧ (∀ p q, EmptyFoundAt s k p → EmptyFoundAt s k q → p = q)

/-! ### LOOKUP -/

/-- 42_commands.md R602: both outcomes, with every field of the response; nothing but the response is
written. That the datapath registers then read 0 is the model's choice (log entry 6). -/
def Obligations.LookupReportsTheFirstCopy : Prop :=
  ∀ (k : Word64) (s : State), s.Accepting →
    (∀ p, KeyFoundAt s k p →
      exec (.lookup k) s = .next { s with
        rspPending := true, dp := Datapath.idle,
        rsp := { op := 0b01, status := .ok, ev := ⟨false, false, false⟩, pos := BitVec.ofNat 32 p,
                 home := BitVec.ofNat 32 ((s.hash64 k).toNat % s.capacity.toNat),
                 capAfter := s.capacity, hash := s.hash64 k, key := k } })
    ∧ (KeyNotFound s k →
      exec (.lookup k) s = .next { s with
        rspPending := true, dp := Datapath.idle,
        rsp := { op := 0b01, status := .notFound, ev := ⟨false, false, false⟩, pos := 0xFFFFFFFF,
                 home := BitVec.ofNat 32 ((s.hash64 k).toNat % s.capacity.toNat),
                 capAfter := s.capacity, hash := s.hash64 k, key := k } })

/-! ### INSERT -/

/-- 42_commands.md R601, R701: an INSERT that does not cross the grow threshold writes the first Empty
slot in probe order, counts it, answers OK, and changes nothing else. That the datapath registers then
read 0 is the model's choice (log entry 6).
A counter wraps only where 10_state.md R110 fails (log entry 21). -/
def Obligations.InsertWritesTheFirstEmptySlot : Prop :=
  ∀ (k : Word64) (s : State) (p : Nat), s.Accepting → s.storageLegal → EmptyFoundAt s k p →
    (s.filled + 1).toNat * 65536 ≤ s.growThr.toNat * s.capacity.toNat →
    ∃ u, WritesSlot p (.occupied k) s u
      ∧ exec (.insert k) s = .next { u with
          filled := s.filled + 1, rspPending := true, dp := Datapath.idle,
          rsp := { op := 0b00, status := .ok, ev := ⟨false, false, false⟩, pos := BitVec.ofNat 32 p,
                   home := BitVec.ofNat 32 ((s.hash64 k).toNat % s.capacity.toNat),
                   capAfter := s.capacity, hash := s.hash64 k, key := k } }

/-- 42_commands.md R601, 43_sequencer.md R701, R703: an INSERT above the grow threshold completes with
the GROW of the table it has written; POS and HOME are those before the grow, CAP_AFTER the doubled
capacity. That the datapath registers read 0 afterwards, and all but op and key as the GROW starts, is
the model's choice (log entry 6).
A counter wraps only where 10_state.md R110 fails (log entry 21). -/
def Obligations.InsertAboveTheThresholdGrows : Prop :=
  ∀ (k : Word64) (s : State) (p : Nat), s.buildLegal → s.Accepting → s.storageLegal →
    EmptyFoundAt s k p →
    s.growThr.toNat * s.capacity.toNat < (s.filled + 1).toNat * 65536 →
    2 * s.capacity.toNat ≤ s.capMax →
    ∃ u g, WritesSlot p (.occupied k) s u
      ∧ exec .grow { u with
          filled := s.filled + 1, dp := { Datapath.idle with op := 0b00, key := k } } = .next g
      ∧ g.capacity.toNat = 2 * s.capacity.toNat
      ∧ exec (.insert k) s = .next { g with
          rspPending := true, dp := Datapath.idle,
          rsp := { op := 0b00, status := .ok, ev := ⟨false, false, true⟩, pos := BitVec.ofNat 32 p,
                   home := BitVec.ofNat 32 ((s.hash64 k).toNat % s.capacity.toNat),
                   capAfter := g.capacity, hash := s.hash64 k, key := k } }

/-- 43_sequencer.md R703, 60_exceptions.md R903, R904: above the grow threshold with the doubled capacity
past CAP_MAX, INSERT enters FAULT with GROW_OVERFLOW; its slot write and its count stand. That the datapath
registers then read 0 is the model's choice (log entry 6).
A counter wraps only where 10_state.md R110 fails (log entry 21). -/
def Obligations.InsertPastCapMaxFaults : Prop :=
  ∀ (k : Word64) (s : State) (p : Nat), s.Accepting → s.storageLegal → EmptyFoundAt s k p →
    s.growThr.toNat * s.capacity.toNat < (s.filled + 1).toNat * 65536 →
    s.capMax < 2 * s.capacity.toNat →
    ∃ u, WritesSlot p (.occupied k) s u
      ∧ exec (.insert k) s = .next { u with
          filled := s.filled + 1, mode := .fault, faultCause := .growOverflow, faultOp := 0b00,
          faultKey := k, dp := Datapath.idle }

/-- 42_commands.md R601, 60_exceptions.md R903, R904: INSERT with no Empty slot enters FAULT with
PROBE_FULL, and nothing else has changed. That the datapath registers then read 0 is the model's choice
(log entry 6). -/
def Obligations.InsertIntoAFullTableFaults : Prop :=
  ∀ (k : Word64) (s : State), s.Accepting → NoEmptySlot s →
    exec (.insert k) s = .next { s with
      mode := .fault, faultCause := .probeFull, faultOp := 0b00, faultKey := k,
      dp := Datapath.idle }

/-- 10_state.md R110, 70_reset_and_hazards.md R1004: in a sound state FILLED + REMOVED is at most CAPACITY,
and an accepted INSERT raises PROBE_FULL exactly when they are equal. -/
def Obligations.ProbeFullExactlyWhenTheCountsFillTheTable : Prop :=
  ∀ (k : Word64) (s : State), s.Sound → s.Accepting →
    s.filled.toNat + s.removed.toNat ≤ s.capacity.toNat
      ∧ ∀ t, exec (.insert k) s = .next t →
          (t.faultCause = .probeFull ↔ s.filled.toNat + s.removed.toNat = s.capacity.toNat)

/-- 95_test_vectors.md W1 (the source's insert/lookup round-trip), for every sound state of a build with
P_LOOKUP_EMPTY_STOP = 0: after an INSERT that answers, grow or not, a LOOKUP of the key finds it. -/
def Obligations.InsertThenLookupFinds : Prop :=
  ∀ (k : Word64) (s t : State), s.Sound → s.Accepting → s.lookupEmptyStop = false →
    exec (.insert k) s = .next t → t.mode = .run →
    ∃ v, exec (.lookup k) { t with rspPending := false } = .next v ∧ v.rsp.status = .ok
      ∧ v.slot v.rsp.pos.toNat = .occupied k

/-! ### REMOVE -/

/-- 42_commands.md R603: a REMOVE that does not find its key writes no state but the response. That the
datapath registers then read 0 is the model's choice (log entry 6). -/
def Obligations.RemoveOfAnAbsentKey : Prop :=
  ∀ (k : Word64) (s : State), s.Accepting → KeyNotFound s k →
    exec (.remove k) s = .next { s with
      rspPending := true, dp := Datapath.idle,
      rsp := { op := 0b10, status := .notFound, ev := ⟨false, false, false⟩, pos := 0xFFFFFFFF,
               home := BitVec.ofNat 32 ((s.hash64 k).toNat % s.capacity.toNat),
               capAfter := s.capacity, hash := s.hash64 k, key := k } }

/-- 42_commands.md R603, 43_sequencer.md R702: a REMOVE that finds its key and triggers nothing makes the
first copy a Tombstone, counts it, answers OK, and changes nothing else. That the datapath registers then
read 0 is the model's choice (log entry 6).
A counter wraps only where 10_state.md R110 fails (log entry 21). -/
def Obligations.RemoveWritesATombstone : Prop :=
  ∀ (k : Word64) (s : State) (p : Nat), s.Accepting → s.storageLegal → KeyFoundAt s k p →
    4 * (s.removed + 1).toNat ≤ s.capacity.toNat →
    s.shrinkThr.toNat * s.capacity.toNat ≤ (s.filled - 1).toNat * 65536 →
    ∃ u, WritesSlot p .tombstone s u
      ∧ exec (.remove k) s = .next { u with
          removed := s.removed + 1, filled := s.filled - 1, rspPending := true,
          dp := Datapath.idle,
          rsp := { op := 0b10, status := .ok, ev := ⟨false, false, false⟩, pos := BitVec.ofNat 32 p,
                   home := BitVec.ofNat 32 ((s.hash64 k).toNat % s.capacity.toNat),
                   capAfter := s.capacity, hash := s.hash64 k, key := k } }

/-- 42_commands.md R603, 43_sequencer.md R702, R704, R705: a REMOVE that finds its key runs, on the table
it has written, first COMPACT if `4 * REMOVED > CAPACITY`, then SHRINK if FILLED is below the shrink
threshold and CAPACITY > 1; then it answers with the events that ran, or is in FAULT as the shrink left
it. That the datapath registers read 0 afterwards, and all but op and key as the cascade starts, is the
model's choice (log entry 6).
A counter wraps only where 10_state.md R110 fails (log entry 21). -/
def Obligations.RemoveRunsItsCascade : Prop :=
  ∀ (k : Word64) (s : State) (p : Nat), s.Accepting → s.storageLegal → KeyFoundAt s k p →
    let cleans : Prop := s.capacity.toNat < 4 * (s.removed + 1).toNat
    let shrinks : Prop := (s.filled - 1).toNat * 65536 < s.shrinkThr.toNat * s.capacity.toNat
      ∧ 1 < s.capacity.toNat
    ∃ u r c d, WritesSlot p .tombstone s u
      ∧ r = { u with removed := s.removed + 1, filled := s.filled - 1,
                     dp := { Datapath.idle with op := 0b10, key := k } }
      ∧ (cleans → exec .compact r = .next c) ∧ (¬ cleans → c = r)
      ∧ (shrinks → exec .shrink c = .next d) ∧ (¬ shrinks → d = c)
      ∧ ((d.mode = .run
          ∧ ∃ e : Events, (e.compact = true ↔ cleans) ∧ (e.shrink = true ↔ shrinks) ∧ e.grow = false
            ∧ exec (.remove k) s = .next { d with
                rspPending := true, dp := Datapath.idle,
                rsp := { op := 0b10, status := .ok, ev := e, pos := BitVec.ofNat 32 p,
                         home := BitVec.ofNat 32 ((s.hash64 k).toNat % s.capacity.toNat),
                         capAfter := d.capacity, hash := s.hash64 k, key := k } })
        ∨ (shrinks ∧ d.mode = .fault ∧ d.faultCause = .shrinkOverflow ∧ d.faultOp = 0b10
          ∧ d.faultKey = k ∧ exec (.remove k) s = .next d))

/-- 70_reset_and_hazards.md R1005: with SHRINK_THR at most 32768 no REMOVE faults. -/
def Obligations.NoShrinkFaultUpToHalf : Prop :=
  ∀ (k : Word64) (s t : State), s.Sound → s.Accepting → s.shrinkThr.toNat ≤ 32768 →
    exec (.remove k) s = .next t → t.mode = .run

/-- 95_test_vectors.md W2 (the source's tombstone shadowing): after a REMOVE that found the only copy of
a key, cascade or not, a LOOKUP of the key does not find it, in either build. -/
def Obligations.RemoveThenLookupMisses : Prop :=
  ∀ (k : Word64) (s t : State), s.Sound → s.Accepting →
    (keysOf s.table s.capacity.toNat).count k = 1 →
    exec (.remove k) s = .next t → t.mode = .run → t.rsp.status = .ok →
    ∃ v, exec (.lookup k) { t with rspPending := false } = .next v ∧ v.rsp.status = .notFound
      ∧ v.rsp.pos = 0xFFFFFFFF

/-! ### Commands in general -/

/-- 42_commands.md R604: the ILLEGAL response, and no other state. That the datapath registers then read 0
is the model's choice (log entry 6). -/
def Obligations.ReservedCommandAnswersIllegal : Prop :=
  ∀ (k : Word64) (s : State), s.Accepting →
    exec (.cmdReserved k) s = .next { s with
      rspPending := true, dp := Datapath.idle,
      rsp := { op := 0b11, status := .illegal, ev := ⟨false, false, false⟩, pos := 0xFFFFFFFF,
               home := 0, capAfter := s.capacity, hash := 0, key := k } }

/-- 42_commands.md R605, R608: every accepted command ends, idle, either with the response to it or in
FAULT with its op code and key recorded and no response. That exec runs it to its end in one transition is
deduced from 43_sequencer.md R720 (log entry 1). -/
def Obligations.OneOutcomePerCommand : Prop :=
  ∀ (k : Word64) (s : State) (op : BitVec 2) (i : Instr), s.Accepting →
    ((op = 0b00 ∧ i = .insert k) ∨ (op = 0b01 ∧ i = .lookup k) ∨ (op = 0b10 ∧ i = .remove k)
      ∨ (op = 0b11 ∧ i = .cmdReserved k)) →
    ∃ t, exec i s = .next t ∧ t.dp.fsm = .idle
      ∧ ((t.mode = .run ∧ t.rspPending = true ∧ t.rsp.op = op ∧ t.rsp.key = k
            ∧ t.rsp.capAfter = t.capacity)
        ∨ (t.mode = .fault ∧ t.rspPending = false ∧ t.faultCause ≠ .none ∧ t.faultOp = op
            ∧ t.faultKey = k ∧ t.rsp = s.rsp ∧ (op = 0b00 ∨ op = 0b10)))

/-- 43_sequencer.md R700, the tombstone comparator in the form its rule derives. -/
def Obligations.LoadFactorComparators : Prop :=
  ∀ s : State,
    (s.growCond = true ↔ s.filled.toNat * 65536 > s.growThr.toNat * s.capacity.toNat)
    ∧ (s.cleanCond = true ↔ 4 * s.removed.toNat > s.capacity.toNat)
    ∧ (s.shrinkCond = true ↔ s.filled.toNat * 65536 < s.shrinkThr.toNat * s.capacity.toNat)

/-! ### GROW, SHRINK, REBUILD -/

/-- 43_sequencer.md R703, R705, R708: GROW rebuilds at twice the capacity and does not fault, or, past
CAP_MAX, raises GROW_OVERFLOW with nothing else changed. The model's choices: run on its own, the fault
context is the op and key the datapath holds (log entry 7), and the datapath is cleared with the FSM back
at IDLE (log entry 6). -/
def Obligations.GrowDoublesOrFaults : Prop :=
  ∀ s : State, s.buildLegal → s.storageLegal → 1 ≤ s.capacity.toNat →
    s.capacity.toNat ≤ s.capMax →
    (2 * s.capacity.toNat ≤ s.capMax →
      ∃ t, exec .grow s = .next t ∧ t.capacity.toNat = 2 * s.capacity.toNat ∧ t.mode = s.mode
        ∧ exec (.rebuild (BitVec.ofNat 32 (2 * s.capacity.toNat))) s = .next t)
    ∧ (s.capMax < 2 * s.capacity.toNat →
      exec .grow s = .next { s with
        mode := .fault, faultCause := .growOverflow, faultOp := s.dp.op, faultKey := s.dp.key,
        dp := Datapath.idle })

/-- 43_sequencer.md R704, R708: SHRINK rebuilds at half the capacity, rounded down, which completes when
the keys fit and ends in FAULT when they do not; at CAPACITY = 1, where no rule starts one, the model does
nothing (log entry 7). -/
def Obligations.ShrinkHalvesOrFaults : Prop :=
  ∀ s : State, 1 ≤ s.capacity.toNat → s.capacity.toNat ≤ s.capMax → s.storageLegal →
    (s.capacity.toNat = 1 → exec .shrink s = .next s)
    ∧ (1 < s.capacity.toNat →
      ∃ t, exec .shrink s = .next t
        ∧ exec (.rebuild (BitVec.ofNat 32 (s.capacity.toNat / 2))) s = .next t
        ∧ (countSlots Slot.isOccupied s.table s.capacity.toNat ≤ s.capacity.toNat / 2 →
            t.capacity.toNat = s.capacity.toNat / 2 ∧ t.mode = s.mode)
        ∧ (s.capacity.toNat / 2 < countSlots Slot.isOccupied s.table s.capacity.toNat →
            t.capacity = s.capacity ∧ t.mode = .fault ∧ t.faultCause = .shrinkOverflow))

/-- 43_sequencer.md R706, R707, R708: a rebuild whose keys fit places each key, in ascending order of the
old slots, at the first free slot from its hash modulo the new capacity; nothing else is in the new table;
the old bank and the other slots are untouched; ACTIVE, CAPACITY and REMOVED are as the rule says and every
other element is unchanged. That the datapath registers are, OFF and P of the placement probes among them,
is the model's choice (log entry 24). -/
def Obligations.RebuildPlacesKeysInOrder : Prop :=
  ∀ (n : Word32) (s : State), 1 ≤ s.capacity.toNat → s.capacity.toNat ≤ s.capMax →
    s.storageLegal → 1 ≤ n.toNat → n.toNat ≤ s.capMax →
    (keysOf s.table s.capacity.toNat).length ≤ n.toNat →
    ∃ t pos, exec (.rebuild n) s = .next t
      ∧ t = { s with bank0 := t.bank0, bank1 := t.bank1, active := 1 - s.active, capacity := n,
                     removed := 0 }
      ∧ PlacedInOrder s.hash64 (keysOf s.table s.capacity.toNat) n.toNat t pos
      ∧ (∀ i, t.slotRead s.active i = s.slotRead s.active i)
      ∧ (∀ i, n.toNat ≤ i → t.slot i = s.slotRead (1 - s.active) i)
      ∧ (keysOf t.table n.toNat).Perm (keysOf s.table s.capacity.toNat)
      ∧ (∀ i < n.toNat, t.slot i ≠ .tombstone)

/-- 43_sequencer.md R707, R708, 60_exceptions.md R904: a rebuild with more keys than slots raises
SHRINK_OVERFLOW; ACTIVE, CAPACITY, REMOVED and the old table are as they were. The model's choices: run on
its own, the fault context is the op and key the datapath holds (log entry 7), and the datapath is cleared
with the FSM back at IDLE (log entry 6). -/
def Obligations.RebuildOverflowKeepsTheOldTable : Prop :=
  ∀ (n : Word32) (s : State), 1 ≤ s.capacity.toNat → s.capacity.toNat ≤ s.capMax →
    s.storageLegal → 1 ≤ n.toNat → n.toNat ≤ s.capMax →
    n.toNat < (keysOf s.table s.capacity.toNat).length →
    ∃ t, exec (.rebuild n) s = .next t
      ∧ t = { s with bank0 := t.bank0, bank1 := t.bank1, mode := .fault,
                     faultCause := .shrinkOverflow, faultOp := s.dp.op, faultKey := s.dp.key,
                     dp := Datapath.idle }
      ∧ (∀ i, t.slotRead s.active i = s.slotRead s.active i)
      ∧ (∀ b i, n.toNat ≤ i → t.slotRead b i = s.slotRead b i)

/-! ### COMPACT -/

/-- 43_sequencer.md R710 in closed form: the table is gaps and runs, and COMPACT moves each run of
Occupied slots left to the first Tombstone of the gap before it, if that gap has one; every other slot of
the gap and the run it leaves is Empty. Nothing else changes but REMOVED; that the datapath registers, the
scan and shift indices among them, do not is the model's choice (log entry 24). -/
def Obligations.CompactMovesEachRunIntoItsGap : Prop :=
  ∀ s : State, 1 ≤ s.capacity.toNat → s.capacity.toNat ≤ s.capMax → s.storageLegal →
    ∃ t, exec .compact s = .next t
      ∧ t = { s with bank0 := t.bank0, bank1 := t.bank1, removed := 0 }
      ∧ (∀ b i, b ≠ s.active ∨ s.capacity.toNat ≤ i → t.slotRead b i = s.slotRead b i)
      ∧ ∀ g a b, GapAndRun s g a b →
          ((∀ i < a, g ≤ i → s.slot i ≠ .tombstone) → ∀ i < b, g ≤ i → t.slot i = s.slot i)
          ∧ ∀ f < a, g ≤ f → s.slot f = .tombstone → (∀ i < f, g ≤ i → s.slot i ≠ .tombstone) →
              (∀ i < b - a, t.slot (f + i) = s.slot (a + i))
              ∧ (∀ i < f, g ≤ i → t.slot i = .empty)
              ∧ (∀ i < b, f + (b - a) ≤ i → t.slot i = .empty)

/-- 43_sequencer.md R711: after COMPACT REMOVED is 0 and no slot of the table is a Tombstone, FILLED and
CAPACITY are unchanged, the keys keep their order, and a second COMPACT changes nothing (of the datapath
registers that is the model's choice, log entry 24). -/
def Obligations.CompactKeepsTheKeysInOrder : Prop :=
  ∀ s : State, 1 ≤ s.capacity.toNat → s.capacity.toNat ≤ s.capMax → s.storageLegal →
    ∃ t, exec .compact s = .next t ∧ t.removed = 0 ∧ t.filled = s.filled
      ∧ t.capacity = s.capacity
      ∧ (∀ i < s.capacity.toNat, t.slot i ≠ .tombstone)
      ∧ keysOf t.table s.capacity.toNat = keysOf s.table s.capacity.toNat
      ∧ exec .compact t = .next t

/-! ### Register reads -/

/-- 44_register_ops.md R801, register by register; in each case nothing but the reply is written. HT_DATA
is stated for a written entry. MODE and FAULT_CAUSE have the codes of 10_state.md R102 and
60_exceptions.md R900. -/
def Obligations.RegisterReads : Prop :=
  ∀ s : State, s.dp.fsm = .idle → s.capacity.toNat ≤ s.capMax →
    let modeCode : Nat :=
      match s.mode with
      | .config => 0
      | .run => 1
      | .fault => 2
    let causeCode : Nat :=
      match s.faultCause with
      | .none => 0
      | .probeFull => 1
      | .growOverflow => 2
      | .shrinkOverflow => 3
    ReadGives s 0x00 0 false
    ∧ ReadGives s 0x01 (BitVec.ofNat 64 (8 * s.rspPending.toNat + 4 * s.tablesComplete.toNat
        + modeCode)) false
    ∧ ReadGives s 0x02 (BitVec.ofNat 64 (16 * s.faultOp.toNat + causeCode)) false
    ∧ ReadGives s 0x03 s.faultKey false
    ∧ ReadGives s 0x04 (BitVec.ofNat 64 s.initCapacity.toNat) false
    ∧ ReadGives s 0x05 (BitVec.ofNat 64 s.growThr.toNat) false
    ∧ ReadGives s 0x06 (BitVec.ofNat 64 s.shrinkThr.toNat) false
    ∧ ReadGives s 0x07 0x4000 false
    ∧ ReadGives s 0x08 (BitVec.ofNat 64 s.capacity.toNat) false
    ∧ ReadGives s 0x09 (BitVec.ofNat 64 s.filled.toNat) false
    ∧ ReadGives s 0x0A (BitVec.ofNat 64 s.removed.toNat) false
    ∧ ReadGives s 0x0B (BitVec.ofNat 64 s.htIndex.toNat) false
    ∧ (s.htw.getLsbD s.htIndex.toNat = true →
        ReadGives s 0x0C (Memory.read 0 s.ht s.htIndex.toNat) false)
    ∧ ReadGives s 0x0D (BitVec.ofNat 64 s.slotIndex.toNat) false
    ∧ (s.slotIndex.toNat < s.capacity.toNat →
        (s.slot s.slotIndex.toNat = .empty →
          ReadGives s 0x0E 0b00 false ∧ ReadGives s 0x0F 0 false)
        ∧ (∀ k, s.slot s.slotIndex.toNat = .occupied k →
          ReadGives s 0x0E 0b01 false ∧ ReadGives s 0x0F k false)
        ∧ (s.slot s.slotIndex.toNat = .tombstone →
          ReadGives s 0x0E 0b10 false ∧ ReadGives s 0x0F 0 false))
    ∧ (s.capacity.toNat ≤ s.slotIndex.toNat →
        ReadGives s 0x0E 0 true ∧ ReadGives s 0x0F 0 true)
    ∧ (s.capMax < 2 ^ 32 → ReadGives s 0x10
        (BitVec.ofNat 64 (2 ^ 32 * s.lookupEmptyStop.toNat + s.capMax)) false)
    ∧ (∀ a : BitVec 8, 0x11 ≤ a.toNat → ReadGives s a 0 true)

/-- 10_state.md R133: a read of an entry never written answers some value, without an error, and changes
nothing else but the model's count of free values (log entry 3). -/
def Obligations.UnwrittenEntryReadsSomeValue : Prop :=
  ∀ (w : Word64) (s : State), s.dp.fsm = .idle → s.htw.getLsbD s.htIndex.toNat = false →
    ∃ d, exec (.rd 0x0C w) s = .next { s with
      reply := some ⟨d, false⟩, freeCtr := s.freeCtr + 1 }

/-! ### Register writes -/

/-- 44_register_ops.md R802. -/
def Obligations.ConfigurationWrites : Prop :=
  ∀ (d : Word64) (s : State), s.dp.fsm = .idle →
    (s.mode = .config →
      exec (.wrInitCapacity d) s = .next { s with
        initCapacity := d.extractLsb' 0 32, reply := some ⟨0, false⟩ }
      ∧ exec (.wrGrowThr d) s = .next { s with
        growThr := d.extractLsb' 0 17, reply := some ⟨0, false⟩ }
      ∧ exec (.wrShrinkThr d) s = .next { s with
        shrinkThr := d.extractLsb' 0 17, reply := some ⟨0, false⟩ }
      ∧ exec (.wrHtIndex d) s = .next { s with
        htIndex := d.extractLsb' 0 11, reply := some ⟨0, false⟩ })
    ∧ (s.mode ≠ .config →
      IsRefused (.wrInitCapacity d) s ∧ IsRefused (.wrGrowThr d) s ∧ IsRefused (.wrShrinkThr d) s
        ∧ IsRefused (.wrHtIndex d) s)

/-- 44_register_ops.md R803: the entry at HT_INDEX, its HTW bit, the auto-increment modulo 2048, and when
TABLES_COMPLETE becomes 1; every other entry and bit is unchanged. -/
def Obligations.TableEntryWrite : Prop :=
  ∀ (d : Word64) (s : State), s.dp.fsm = .idle →
    (s.mode = .config → s.storageLegal →
      ∃ t, exec (.wrHtData d) s = .next t
        ∧ t = { s with ht := t.ht, htw := t.htw, htIndex := t.htIndex, reply := some ⟨0, false⟩ }
        ∧ t.htIndex.toNat = (s.htIndex.toNat + 1) % 2048
        ∧ Memory.read 0 t.ht s.htIndex.toNat = d
        ∧ (∀ n, n ≠ s.htIndex.toNat → Memory.read 0 t.ht n = Memory.read 0 s.ht n)
        ∧ t.htw.getLsbD s.htIndex.toNat = true
        ∧ (∀ n, n ≠ s.htIndex.toNat → t.htw.getLsbD n = s.htw.getLsbD n)
        ∧ (t.tablesComplete = true ↔
            ∀ n < 2048, n ≠ s.htIndex.toNat → s.htw.getLsbD n = true))
    ∧ (s.mode ≠ .config → IsRefused (.wrHtData d) s)

/-- 44_register_ops.md R804: the decoding of a CTRL write and what a write that names no action does. -/
def Obligations.CtrlWriteDecode : Prop :=
  ∀ d : Word64,
    (d = 0x1 → decode (.reg (0b1#1 ++ 0x00#8 ++ d)) = .start)
    ∧ (d = 0x2 → decode (.reg (0b1#1 ++ 0x00#8 ++ d)) = .softReset)
    ∧ (d = 0x4 → decode (.reg (0b1#1 ++ 0x00#8 ++ d)) = .compactNow)
    ∧ (d ≠ 0x1 → d ≠ 0x2 → d ≠ 0x4 →
        decode (.reg (0b1#1 ++ 0x00#8 ++ d)) = .wrCtrl d
        ∧ ∀ s : State, s.dp.fsm = .idle →
            (d = 0 → exec (.wrCtrl d) s = .next { s with reply := some ⟨0, false⟩ })
            ∧ (d ≠ 0 → IsRefused (.wrCtrl d) s))

/-- 44_register_ops.md R805: START checks its five conditions; when they hold it builds the empty table
in bank 0 and enters RUN, else it is refused. That the datapath registers, the clear index among them, are
then as before is the model's choice (log entry 24). -/
def Obligations.StartBuildsAnEmptyTable : Prop :=
  ∀ s : State, s.dp.fsm = .idle →
    let legal : Prop := s.mode = .config
      ∧ (1 ≤ s.initCapacity.toNat ∧ s.initCapacity.toNat ≤ s.capMax)
      ∧ (1 ≤ s.growThr.toNat ∧ s.growThr.toNat ≤ 65536) ∧ s.shrinkThr.toNat ≤ 65535
      ∧ s.tablesComplete = true
    (legal →
      ∃ t, exec .start s = .next t
        ∧ t = { s with bank0 := t.bank0, active := 0, capacity := s.initCapacity, filled := 0,
                       removed := 0, mode := .run, reply := some ⟨0, false⟩ }
        ∧ (∀ i < s.initCapacity.toNat, t.slot i = .empty)
        ∧ (∀ i, s.initCapacity.toNat ≤ i → t.slotRead 0 i = s.slotRead 0 i))
    ∧ (¬ legal → IsRefused .start s)

/-- 44_register_ops.md R806: SOFT_RESET, in every mode; what it keeps is kept. RSP is unspecified
afterwards (10_state.md R140). That the datapath registers are then as before is the model's choice (log
entry 24). -/
def Obligations.SoftResetLeavesConfig : Prop :=
  ∀ s : State, s.dp.fsm = .idle →
    ∃ t, exec .softReset s = .next t
      ∧ t = { s with mode := .config, capacity := 0, filled := 0, removed := 0, active := 0,
                     rspPending := false, faultCause := .none, faultOp := 0, faultKey := 0,
                     htIndex := 0, slotIndex := 0, reply := some ⟨0, false⟩,
                     rsp := t.rsp, freeCtr := t.freeCtr }

/-- 44_register_ops.md R807: in RUN mode COMPACT_NOW is COMPACT and an acknowledgement, RSP and
RSP_PENDING untouched and no fault; outside it is refused. -/
def Obligations.CompactNowCompacts : Prop :=
  ∀ s : State, s.dp.fsm = .idle →
    (s.mode = .run → 1 ≤ s.capacity.toNat → s.capacity.toNat ≤ s.capMax →
      ∃ t, exec .compact s = .next t
        ∧ t.rsp = s.rsp ∧ t.rspPending = s.rspPending ∧ t.mode = s.mode
        ∧ exec .compactNow s = .next { t with reply := some ⟨0, false⟩ })
    ∧ (s.mode ≠ .run → IsRefused .compactNow s)

/-- 44_register_ops.md R808, R809: SLOT_INDEX is written in every mode; a write to a read-only or
reserved index is refused and changes nothing. -/
def Obligations.SlotIndexAndRefusedWrites : Prop :=
  ∀ (d : Word64) (s : State), s.dp.fsm = .idle →
    exec (.wrSlotIndex d) s = .next { s with
      slotIndex := d.extractLsb' 0 32, reply := some ⟨0, false⟩ }
    ∧ IsRefused (.wrRefused01 d) s ∧ (∀ l, IsRefused (.wrRefused02 l d) s)
    ∧ IsRefused (.wrRefused07 d) s ∧ (∀ l, IsRefused (.wrRefused08 l d) s)
    ∧ IsRefused (.wrRefused0A d) s ∧ (∀ l, IsRefused (.wrRefused0E l d) s)
    ∧ (∀ l, IsRefused (.wrRefused10 l d) s) ∧ (∀ l, IsRefused (.wrRefused20 l d) s)
    ∧ (∀ l, IsRefused (.wrRefused40 l d) s) ∧ (∀ l, IsRefused (.wrRefused80 l d) s)

/-! ### Where the model stops -/

/-- The model's own faults (log entry 12), raised only where a premise of the spec's rules fails: CAPACITY
outside 1..CAP_MAX (42_commands.md R600, 10_state.md R110), a probe or rebuild operand outside its range
(41_probe_cam.md R501, 43_sequencer.md R707), a slot that does not exist (10_state.md R108). -/
def Obligations.OutOfRangeStates : Prop :=
  (∀ (k : Word64) (n : Word32) (s : State),
      s.capacity.toNat = 0 ∨ s.capMax < s.capacity.toNat →
      (s.mode = .run → s.dp.fsm = .idle → exec .compactNow s = .fault .capacityOutOfRange)
      ∧ (s.mode = .run → s.dp.fsm = .idle → s.rspPending = false →
          exec (.insert k) s = .fault .capacityOutOfRange
          ∧ exec (.lookup k) s = .fault .capacityOutOfRange
          ∧ exec (.remove k) s = .fault .capacityOutOfRange
          ∧ exec (.cmdReserved k) s = .fault .capacityOutOfRange)
      ∧ exec .grow s = .fault .capacityOutOfRange ∧ exec .shrink s = .fault .capacityOutOfRange
      ∧ exec (.rebuild n) s = .fault .capacityOutOfRange
      ∧ exec .compact s = .fault .capacityOutOfRange)
  ∧ (∀ (b : BitVec 1) (home cap : Word32) (k : Word64) (s : State),
      cap.toNat = 0 ∨ s.capMax < cap.toNat ∨ cap.toNat ≤ home.toNat →
      exec (.probeFree b home cap) s = .fault .operandOutOfRange
      ∧ exec (.probeKey home cap k) s = .fault .operandOutOfRange)
  ∧ (∀ (n : Word32) (s : State), 1 ≤ s.capacity.toNat → s.capacity.toNat ≤ s.capMax →
      n.toNat = 0 ∨ s.capMax < n.toNat → exec (.rebuild n) s = .fault .operandOutOfRange)
  ∧ ∀ (w : Word64) (s : State), s.dp.fsm = .idle → s.slotIndex.toNat < s.capacity.toNat →
      s.capMax ≤ s.slotIndex.toNat →
      exec (.rd 0x0E w) s = .fault .slotOutOfBank ∧ exec (.rd 0x0F w) s = .fault .slotOutOfBank

/-! ### The control state machine -/

/-- 43_sequencer.md R720, R721: LOOKUP as one atomic transition is its micro-steps, HASH, at most
CAPACITY probe steps, and RESPOND. That HASH and RESPOND are one micro-step each, and so the count, is
the model's granularity (log entries 14 and 27). -/
def Obligations.LookupByMicroSteps : Prop :=
  ∀ (k : Word64) (s t : State), s.Sound → s.Accepting → exec (.lookup k) s = .next t →
    microSteps (s.capacity.toNat + 2) (beginCommand 0b01 k s) = t

/-- 43_sequencer.md R720, R721: INSERT and REMOVE as atomic transitions are their micro-steps, cascades
and faults included, within the bound of R721 (an idle FSM stays as it is, so "within"). What counts
as one micro-step is the model's granularity (log entries 14 and 27). -/
def Obligations.InsertAndRemoveByMicroSteps : Prop :=
  ∀ (k : Word64) (s : State), s.Sound → s.Accepting →
    let c := s.capacity.toNat
    (∀ t, exec (.insert k) s = .next t →
      microSteps (3 * c * c + 6 * c + 2) (beginCommand 0b00 k s) = t)
    ∧ (∀ t, exec (.remove k) s = .next t →
      microSteps (3 * c * c + 6 * c + 2) (beginCommand 0b10 k s) = t)

/-- 43_sequencer.md R720: START, when its checks pass, and COMPACT_NOW in RUN mode as atomic transitions
are their micro-steps. R721 gives no count for either; the counts here rest on the model's granularity, in
which START commits inside its last clearing turn and COMPACT_NOW ends inside its last scan or shift turn
(log entries 14 and 27). -/
def Obligations.CtrlActionsByMicroSteps : Prop :=
  ∀ s t : State, s.Sound →
    (s.startLegal = true → exec .start s = .next t →
      microSteps s.initCapacity.toNat (beginStart s) = t)
    ∧ (s.mode = .run → exec .compactNow s = .next t →
      microSteps (2 * s.capacity.toNat) (beginCompactNow s) = t)

end
end

