-- ==== Sys2Proof/Laws/Encoding.lean ====
section
/-! SUPPORT. The fields of the two port words, and which row a write index belongs to. -/

namespace Sys2Proof

/-! ### Fields of a concatenation -/

/-- The low part of a concatenation. -/
theorem extract_low {n m : Nat} (a : BitVec n) (b : BitVec m) : (a ++ b).extractLsb' 0 m = b := by
  apply BitVec.eq_of_getLsbD_eq
  intro i hi
  simp [BitVec.getLsbD_append, hi]

/-- The high part of a concatenation. -/
theorem extract_high {n m : Nat} (a : BitVec n) (b : BitVec m) : (a ++ b).extractLsb' m n = a := by
  apply BitVec.eq_of_getLsbD_eq
  intro i hi
  simp [BitVec.getLsbD_append, hi]

/-- A bit of the high part of a concatenation. -/
theorem append_bit_high {n m : Nat} (a : BitVec n) (b : BitVec m) (i : Nat) :
    (a ++ b).getLsbD (m + i) = a.getLsbD i := by
  simp [BitVec.getLsbD_append]

/-- A bit of the low part of a concatenation. -/
theorem append_bit_low {n m : Nat} (a : BitVec n) (b : BitVec m) {i : Nat} (h : i < m) :
    (a ++ b).getLsbD i = b.getLsbD i := by
  simp [BitVec.getLsbD_append, h]

/-! ### Command word -/

theorem cmdWord_key (op : BitVec 2) (k : Word64) : (cmdWord op k).extractLsb' 0 64 = k :=
  extract_low op k

theorem cmdWord_op (op : BitVec 2) (k : Word64) : (cmdWord op k).extractLsb' 64 2 = op :=
  extract_high op k

/-- Decoding a command word looks at its OP and hands on its KEY. -/
theorem decodeCmd_cmdWord (op : BitVec 2) (k : Word64) :
    decodeCmd (cmdWord op k) = match op.toNat with
      | 0 => .insert k
      | 1 => .lookup k
      | 2 => .remove k
      | _ => .cmdReserved k := by
  unfold decodeCmd
  rw [cmdWord_key, cmdWord_op] <;> rfl

/-! ### Register request word -/

theorem regWord_wdata (we : Bool) (a : BitVec 8) (d : Word64) :
    (regWord we a d).extractLsb' 0 64 = d := extract_low _ d

theorem regWord_addr (we : Bool) (a : BitVec 8) (d : Word64) :
    (regWord we a d).extractLsb' 64 8 = a := by
  apply BitVec.eq_of_getLsbD_eq
  intro i hi
  rw [BitVec.getLsbD_extractLsb']
  simp only [hi, decide_true, Bool.true_and]
  exact (append_bit_high (BitVec.ofBool we ++ a) d i).trans
    (append_bit_low (BitVec.ofBool we) a hi)

theorem regWord_we (we : Bool) (a : BitVec 8) (d : Word64) : (regWord we a d).getLsbD 72 = we :=
  (append_bit_high (BitVec.ofBool we ++ a) d 8).trans
    ((append_bit_high (BitVec.ofBool we) a 0).trans (by cases we <;> rfl))

/-- Decoding a register request word looks at its WE and ADDR and hands on its WDATA. -/
theorem decodeReg_regWord (we : Bool) (a : BitVec 8) (d : Word64) :
    decodeReg (regWord we a d) = if we then decodeWrite a d else .rd a d := by
  unfold decodeReg
  rw [regWord_wdata, regWord_addr, regWord_we]

/-- The indices from 0x10 on, by the blocks of the opcode table. -/
theorem decodeWrite_high {a : BitVec 8} (h : 0x10 ≤ a.toNat) (d : Word64) :
    decodeWrite a d
      = if a.toNat < 0x20 then .wrRefused10 (a.extractLsb' 0 4) d
        else if a.toNat < 0x40 then .wrRefused20 (a.extractLsb' 0 5) d
        else if a.toNat < 0x80 then .wrRefused40 (a.extractLsb' 0 6) d
        else .wrRefused80 (a.extractLsb' 0 7) d := by
  unfold decodeWrite
  split <;> first | omega | rfl

end Sys2Proof
end

