-- ==== Sys2Proof/Laws/Memory.lean ====
section
/-! SUPPORT. The laws of the storages: what a read finds after a write, and that every operation
keeps the canonical form. -/

namespace Sys2Proof.Machine

variable {α : Type} [DecidableEq α] {d v : α} {m m' : Memory α} {i j n : Nat}

/-! ### Reading -/

omit [DecidableEq α] in
@[simp] theorem Memory.read_nil : Memory.read d [] i = d := rfl

omit [DecidableEq α] in
theorem Memory.read_cons (a : Nat) (w : α) (m : Memory α) :
    Memory.read d ((a, w) :: m) i = if a = i then w else Memory.read d m i := rfl

omit [DecidableEq α] in
/-- A read finds a listed pair, or what an unlisted index holds. -/
theorem Memory.read_cases (d : α) (m : Memory α) (i : Nat) :
    (i, Memory.read d m i) ∈ m ∨ Memory.read d m i = d := by
  induction m with
  | nil => exact .inr rfl
  | cons e m ih =>
    obtain ⟨a, w⟩ := e
    rw [Memory.read_cons]
    split
    · subst_vars; exact .inl (by simp)
    · exact ih.imp (List.mem_cons_of_mem _) id

omit [DecidableEq α] in
/-- Below every listed index nothing is listed. -/
theorem Memory.read_below (h : ∀ e ∈ m, i < e.1) : Memory.read d m i = d := by
  rcases Memory.read_cases d m i with hm | h'
  · exact absurd (h _ hm) (Nat.lt_irrefl _)
  · exact h'

omit [DecidableEq α] in
/-- In a list with rising indices a listed pair is what a read finds. -/
theorem Memory.read_of_mem (hs : m.Pairwise fun x y => x.1 < y.1) (h : (i, v) ∈ m) :
    Memory.read d m i = v := by
  induction m with
  | nil => cases h
  | cons e m ih =>
    obtain ⟨a, w⟩ := e
    rw [List.pairwise_cons] at hs
    rw [Memory.read_cons]
    rcases List.mem_cons.1 h with h | h
    · cases h; simp
    · have := hs.1 _ h
      rw [if_neg (by simp only at this; omega)]
      exact ih hs.2 h

/-! ### Writing -/

/-- A read of the index written finds the value written. -/
theorem Memory.read_write_same (hs : m.Pairwise fun x y => x.1 < y.1) :
    Memory.read d (Memory.write d m i v) i = v := by
  induction m with
  | nil =>
    unfold Memory.write
    split
    · simp [*]
    · simp [Memory.read_cons]
  | cons e m ih =>
    obtain ⟨a, w⟩ := e
    rw [List.pairwise_cons] at hs
    unfold Memory.write
    split
    · rename_i h
      rw [Memory.read_cons, if_neg (by omega)]
      exact ih hs.2
    · split
      · subst_vars
        split
        · subst_vars
          exact Memory.read_below fun e he => hs.1 e he
        · simp [Memory.read_cons]
      · split
        · subst_vars
          refine Memory.read_below fun e he => ?_
          rcases List.mem_cons.1 he with rfl | he
          · simp only; omega
          · have := hs.1 e he
            simp only at this; omega
        · simp [Memory.read_cons]

/-- A read of any other index finds what it found before. -/
theorem Memory.read_write_other (h : i ≠ j) :
    Memory.read d (Memory.write d m i v) j = Memory.read d m j := by
  induction m with
  | nil =>
    unfold Memory.write
    split
    · rfl
    · simp [Memory.read_cons, h]
  | cons e m ih =>
    obtain ⟨a, w⟩ := e
    unfold Memory.write
    split
    · simp only [Memory.read_cons, ih]
    · split
      · subst_vars
        split
        · simp [Memory.read_cons, h]
        · simp [Memory.read_cons, h]
      · split
        · rfl
        · simp [Memory.read_cons, h]

/-- The two laws in one. -/
theorem Memory.read_write (hs : m.Pairwise fun x y => x.1 < y.1) :
    Memory.read d (Memory.write d m i v) j = if i = j then v else Memory.read d m j := by
  split
  · subst_vars; exact Memory.read_write_same hs
  · exact Memory.read_write_other ‹_›

/-- A write lists nothing new but the pair written. -/
theorem Memory.mem_write {e : Nat × α} (h : e ∈ Memory.write d m i v) :
    e ∈ m ∨ (e = (i, v) ∧ v ≠ d) := by
  induction m with
  | nil =>
    unfold Memory.write at h
    split at h
    · cases h
    · exact .inr ⟨by simpa using h, ‹_›⟩
  | cons a m ih =>
    obtain ⟨a, w⟩ := a
    unfold Memory.write at h
    split at h
    · rcases List.mem_cons.1 h with h | h
      · exact .inl (by simp [h])
      · exact (ih h).imp (List.mem_cons_of_mem _) id
    · split at h
      · split at h
        · exact .inl (List.mem_cons_of_mem _ h)
        · rcases List.mem_cons.1 h with h | h
          · exact .inr ⟨h, ‹_›⟩
          · exact .inl (List.mem_cons_of_mem _ h)
      · split at h
        · exact .inl h
        · rcases List.mem_cons.1 h with h | h
          · exact .inr ⟨h, ‹_›⟩
          · exact .inl h

/-- A write keeps the canonical form. -/
theorem Memory.wf_write (h : Memory.wf d m) : Memory.wf d (Memory.write d m i v) := by
  refine ⟨?_, fun e he => ?_⟩
  · obtain ⟨hs, -⟩ := h
    induction m with
    | nil =>
      unfold Memory.write
      split <;> simp
    | cons a m ih =>
      obtain ⟨a, w⟩ := a
      have hs' := List.pairwise_cons.1 hs
      unfold Memory.write
      split
      · refine List.pairwise_cons.2 ⟨fun e he => ?_, ih hs'.2⟩
        rcases Memory.mem_write he with he | ⟨rfl, -⟩
        · exact hs'.1 e he
        · assumption
      · split
        · subst_vars
          split
          · exact hs'.2
          · exact List.pairwise_cons.2 ⟨hs'.1, hs'.2⟩
        · split
          · exact hs
          · refine List.pairwise_cons.2 ⟨fun e he => ?_, hs⟩
            rcases List.mem_cons.1 he with rfl | he
            · simp only; omega
            · have := hs'.1 e he
              simp only at this ⊢; omega
  · rcases Memory.mem_write he with he | ⟨rfl, hv⟩
    · exact h.2 e he
    · exact hv

/-! ### Clearing -/

omit [DecidableEq α] in
/-- After a clearing of 0..n-1 those indices hold what an unlisted index holds, and the others what
they held. -/
theorem Memory.read_clearBelow :
    Memory.read d (Memory.clearBelow n m) i = if i < n then d else Memory.read d m i := by
  unfold Memory.clearBelow
  induction m with
  | nil => simp
  | cons e m ih =>
    obtain ⟨a, w⟩ := e
    by_cases ha : n ≤ a
    · rw [List.filter_cons_of_pos (by simpa using ha), Memory.read_cons, ih, Memory.read_cons]
      by_cases hai : a = i
      · subst hai; simp [Nat.not_lt.2 ha]
      · simp [hai]
    · rw [List.filter_cons_of_neg (by simpa using ha), ih, Memory.read_cons]
      by_cases hi : i < n
      · simp [hi]
      · rw [if_neg hi, if_neg hi, if_neg (by omega)]

/-- A clearing keeps the canonical form. -/
theorem Memory.wf_clearBelow (h : Memory.wf d m) : Memory.wf d (Memory.clearBelow n m) :=
  ⟨h.1.filter _, fun e he => h.2 e (List.mem_filter.1 he).1⟩

omit [DecidableEq α] in
/-- A clearing lists nothing new. -/
theorem Memory.mem_clearBelow {e : Nat × α} (h : e ∈ Memory.clearBelow n m) : e ∈ m :=
  (List.mem_filter.1 h).1

/-! ### Equality -/

/-- Two storages in canonical form with equal reads are equal. -/
theorem Memory.ext (h : Memory.wf d m) (h' : Memory.wf d m')
    (hr : ∀ i, Memory.read d m i = Memory.read d m' i) : m = m' := by
  have key : ∀ {m m' : Memory α}, Memory.wf d m → Memory.wf d m' →
      (∀ i, Memory.read d m i = Memory.read d m' i) → ∀ e ∈ m, e ∈ m' := by
    intro m m' h h' hr e he
    have h1 : Memory.read d m e.1 = e.2 := Memory.read_of_mem h.1 he
    rcases Memory.read_cases d m' e.1 with hm | hd
    · rw [← hr, h1] at hm; exact hm
    · exact absurd (by rw [← h1, hr, hd]) (h.2 e he)
  have hmem : ∀ e, e ∈ m ↔ e ∈ m' :=
    fun e => ⟨key h h' hr e, key h' h (fun i => (hr i).symm) e⟩
  have irr : ∀ {m : Memory α}, m.Pairwise (fun x y => x.1 < y.1) → m.Nodup := fun hs =>
    hs.imp fun hlt heq => by rw [heq] at hlt; exact Nat.lt_irrefl _ hlt
  have hp : m.Perm m' := (List.perm_ext_iff_of_nodup (irr h.1) (irr h'.1)).2 hmem
  exact hp.eq_of_pairwise (fun a b _ _ hab hba => absurd hab (Nat.lt_asymm hba)) h.1 h'.1

/-- The clearing loop of the pseudocode, one write an index, is `clearBelow`. -/
theorem Memory.clearBelow_eq_loop (h : Memory.wf d m) (n : Nat) :
    (List.range n).foldl (fun m i => Memory.write d m i d) m = Memory.clearBelow n m := by
  have hw : ∀ n, Memory.wf d ((List.range n).foldl (fun m i => Memory.write d m i d) m) := by
    intro n
    induction n with
    | zero => simpa using h
    | succ n ih =>
      rw [List.range_succ, List.foldl_append]
      exact Memory.wf_write ih
  refine Memory.ext (hw n) (Memory.wf_clearBelow h) fun i => ?_
  induction n with
  | zero => simp [Memory.read_clearBelow]
  | succ n ih =>
    rw [List.range_succ, List.foldl_append, List.foldl_cons, List.foldl_nil,
      Memory.read_write (hw n).1, ih, Memory.read_clearBelow, Memory.read_clearBelow]
    split
    · subst_vars; simp
    · by_cases hi : i < n
      · rw [if_pos hi, if_pos (by omega)]
      · rw [if_neg hi, if_neg (by omega)]

end Sys2Proof.Machine
end

