-- ==== Sys2Proof/Laws/State.lean ====
section
/-! SUPPORT. One lemma for each field of State under each named update, so that no proof unfolds a
record update; and what a bank holds after a write to a bank. -/

namespace Sys2Proof.Machine

variable (s : State)

/-! ### setBank -/

@[simp] theorem setBank_mode (b : BitVec 1) (m : Memory Slot) :
    (s.setBank b m).mode = s.mode := by unfold State.setBank; split <;> rfl
@[simp] theorem setBank_initCapacity (b : BitVec 1) (m : Memory Slot) :
    (s.setBank b m).initCapacity = s.initCapacity := by unfold State.setBank; split <;> rfl
@[simp] theorem setBank_growThr (b : BitVec 1) (m : Memory Slot) :
    (s.setBank b m).growThr = s.growThr := by unfold State.setBank; split <;> rfl
@[simp] theorem setBank_shrinkThr (b : BitVec 1) (m : Memory Slot) :
    (s.setBank b m).shrinkThr = s.shrinkThr := by unfold State.setBank; split <;> rfl
@[simp] theorem setBank_capacity (b : BitVec 1) (m : Memory Slot) :
    (s.setBank b m).capacity = s.capacity := by unfold State.setBank; split <;> rfl
@[simp] theorem setBank_filled (b : BitVec 1) (m : Memory Slot) :
    (s.setBank b m).filled = s.filled := by unfold State.setBank; split <;> rfl
@[simp] theorem setBank_removed (b : BitVec 1) (m : Memory Slot) :
    (s.setBank b m).removed = s.removed := by unfold State.setBank; split <;> rfl
@[simp] theorem setBank_ht (b : BitVec 1) (m : Memory Slot) :
    (s.setBank b m).ht = s.ht := by unfold State.setBank; split <;> rfl
@[simp] theorem setBank_htw (b : BitVec 1) (m : Memory Slot) :
    (s.setBank b m).htw = s.htw := by unfold State.setBank; split <;> rfl
@[simp] theorem setBank_active (b : BitVec 1) (m : Memory Slot) :
    (s.setBank b m).active = s.active := by unfold State.setBank; split <;> rfl
@[simp] theorem setBank_rspPending (b : BitVec 1) (m : Memory Slot) :
    (s.setBank b m).rspPending = s.rspPending := by unfold State.setBank; split <;> rfl
@[simp] theorem setBank_rsp (b : BitVec 1) (m : Memory Slot) :
    (s.setBank b m).rsp = s.rsp := by unfold State.setBank; split <;> rfl
@[simp] theorem setBank_faultCause (b : BitVec 1) (m : Memory Slot) :
    (s.setBank b m).faultCause = s.faultCause := by unfold State.setBank; split <;> rfl
@[simp] theorem setBank_faultOp (b : BitVec 1) (m : Memory Slot) :
    (s.setBank b m).faultOp = s.faultOp := by unfold State.setBank; split <;> rfl
@[simp] theorem setBank_faultKey (b : BitVec 1) (m : Memory Slot) :
    (s.setBank b m).faultKey = s.faultKey := by unfold State.setBank; split <;> rfl
@[simp] theorem setBank_htIndex (b : BitVec 1) (m : Memory Slot) :
    (s.setBank b m).htIndex = s.htIndex := by unfold State.setBank; split <;> rfl
@[simp] theorem setBank_slotIndex (b : BitVec 1) (m : Memory Slot) :
    (s.setBank b m).slotIndex = s.slotIndex := by unfold State.setBank; split <;> rfl
@[simp] theorem setBank_dp (b : BitVec 1) (m : Memory Slot) :
    (s.setBank b m).dp = s.dp := by unfold State.setBank; split <;> rfl
@[simp] theorem setBank_reply (b : BitVec 1) (m : Memory Slot) :
    (s.setBank b m).reply = s.reply := by unfold State.setBank; split <;> rfl
@[simp] theorem setBank_capMax (b : BitVec 1) (m : Memory Slot) :
    (s.setBank b m).capMax = s.capMax := by unfold State.setBank; split <;> rfl
@[simp] theorem setBank_lookupEmptyStop (b : BitVec 1) (m : Memory Slot) :
    (s.setBank b m).lookupEmptyStop = s.lookupEmptyStop := by unfold State.setBank; split <;> rfl
@[simp] theorem setBank_inputs (b : BitVec 1) (m : Memory Slot) :
    (s.setBank b m).inputs = s.inputs := by unfold State.setBank; split <;> rfl
@[simp] theorem setBank_freeCtr (b : BitVec 1) (m : Memory Slot) :
    (s.setBank b m).freeCtr = s.freeCtr := by unfold State.setBank; split <;> rfl

/-! ### slotWrite -/

@[simp] theorem slotWrite_mode (b : BitVec 1) (i : Nat) (v : Slot) :
    (s.slotWrite b i v).mode = s.mode := by unfold State.slotWrite State.setBank; split <;> rfl
@[simp] theorem slotWrite_initCapacity (b : BitVec 1) (i : Nat) (v : Slot) :
    (s.slotWrite b i v).initCapacity = s.initCapacity := by unfold State.slotWrite State.setBank; split <;> rfl
@[simp] theorem slotWrite_growThr (b : BitVec 1) (i : Nat) (v : Slot) :
    (s.slotWrite b i v).growThr = s.growThr := by unfold State.slotWrite State.setBank; split <;> rfl
@[simp] theorem slotWrite_shrinkThr (b : BitVec 1) (i : Nat) (v : Slot) :
    (s.slotWrite b i v).shrinkThr = s.shrinkThr := by unfold State.slotWrite State.setBank; split <;> rfl
@[simp] theorem slotWrite_capacity (b : BitVec 1) (i : Nat) (v : Slot) :
    (s.slotWrite b i v).capacity = s.capacity := by unfold State.slotWrite State.setBank; split <;> rfl
@[simp] theorem slotWrite_filled (b : BitVec 1) (i : Nat) (v : Slot) :
    (s.slotWrite b i v).filled = s.filled := by unfold State.slotWrite State.setBank; split <;> rfl
@[simp] theorem slotWrite_removed (b : BitVec 1) (i : Nat) (v : Slot) :
    (s.slotWrite b i v).removed = s.removed := by unfold State.slotWrite State.setBank; split <;> rfl
@[simp] theorem slotWrite_ht (b : BitVec 1) (i : Nat) (v : Slot) :
    (s.slotWrite b i v).ht = s.ht := by unfold State.slotWrite State.setBank; split <;> rfl
@[simp] theorem slotWrite_htw (b : BitVec 1) (i : Nat) (v : Slot) :
    (s.slotWrite b i v).htw = s.htw := by unfold State.slotWrite State.setBank; split <;> rfl
@[simp] theorem slotWrite_active (b : BitVec 1) (i : Nat) (v : Slot) :
    (s.slotWrite b i v).active = s.active := by unfold State.slotWrite State.setBank; split <;> rfl
@[simp] theorem slotWrite_rspPending (b : BitVec 1) (i : Nat) (v : Slot) :
    (s.slotWrite b i v).rspPending = s.rspPending := by unfold State.slotWrite State.setBank; split <;> rfl
@[simp] theorem slotWrite_rsp (b : BitVec 1) (i : Nat) (v : Slot) :
    (s.slotWrite b i v).rsp = s.rsp := by unfold State.slotWrite State.setBank; split <;> rfl
@[simp] theorem slotWrite_faultCause (b : BitVec 1) (i : Nat) (v : Slot) :
    (s.slotWrite b i v).faultCause = s.faultCause := by unfold State.slotWrite State.setBank; split <;> rfl
@[simp] theorem slotWrite_faultOp (b : BitVec 1) (i : Nat) (v : Slot) :
    (s.slotWrite b i v).faultOp = s.faultOp := by unfold State.slotWrite State.setBank; split <;> rfl
@[simp] theorem slotWrite_faultKey (b : BitVec 1) (i : Nat) (v : Slot) :
    (s.slotWrite b i v).faultKey = s.faultKey := by unfold State.slotWrite State.setBank; split <;> rfl
@[simp] theorem slotWrite_htIndex (b : BitVec 1) (i : Nat) (v : Slot) :
    (s.slotWrite b i v).htIndex = s.htIndex := by unfold State.slotWrite State.setBank; split <;> rfl
@[simp] theorem slotWrite_slotIndex (b : BitVec 1) (i : Nat) (v : Slot) :
    (s.slotWrite b i v).slotIndex = s.slotIndex := by unfold State.slotWrite State.setBank; split <;> rfl
@[simp] theorem slotWrite_dp (b : BitVec 1) (i : Nat) (v : Slot) :
    (s.slotWrite b i v).dp = s.dp := by unfold State.slotWrite State.setBank; split <;> rfl
@[simp] theorem slotWrite_reply (b : BitVec 1) (i : Nat) (v : Slot) :
    (s.slotWrite b i v).reply = s.reply := by unfold State.slotWrite State.setBank; split <;> rfl
@[simp] theorem slotWrite_capMax (b : BitVec 1) (i : Nat) (v : Slot) :
    (s.slotWrite b i v).capMax = s.capMax := by unfold State.slotWrite State.setBank; split <;> rfl
@[simp] theorem slotWrite_lookupEmptyStop (b : BitVec 1) (i : Nat) (v : Slot) :
    (s.slotWrite b i v).lookupEmptyStop = s.lookupEmptyStop := by unfold State.slotWrite State.setBank; split <;> rfl
@[simp] theorem slotWrite_inputs (b : BitVec 1) (i : Nat) (v : Slot) :
    (s.slotWrite b i v).inputs = s.inputs := by unfold State.slotWrite State.setBank; split <;> rfl
@[simp] theorem slotWrite_freeCtr (b : BitVec 1) (i : Nat) (v : Slot) :
    (s.slotWrite b i v).freeCtr = s.freeCtr := by unfold State.slotWrite State.setBank; split <;> rfl

/-! ### tabWrite -/

@[simp] theorem tabWrite_mode (i : TableIndex) (d : Word64) :
    (s.tabWrite i d).mode = s.mode := rfl
@[simp] theorem tabWrite_initCapacity (i : TableIndex) (d : Word64) :
    (s.tabWrite i d).initCapacity = s.initCapacity := rfl
@[simp] theorem tabWrite_growThr (i : TableIndex) (d : Word64) :
    (s.tabWrite i d).growThr = s.growThr := rfl
@[simp] theorem tabWrite_shrinkThr (i : TableIndex) (d : Word64) :
    (s.tabWrite i d).shrinkThr = s.shrinkThr := rfl
@[simp] theorem tabWrite_capacity (i : TableIndex) (d : Word64) :
    (s.tabWrite i d).capacity = s.capacity := rfl
@[simp] theorem tabWrite_filled (i : TableIndex) (d : Word64) :
    (s.tabWrite i d).filled = s.filled := rfl
@[simp] theorem tabWrite_removed (i : TableIndex) (d : Word64) :
    (s.tabWrite i d).removed = s.removed := rfl
@[simp] theorem tabWrite_ht (i : TableIndex) (d : Word64) :
    (s.tabWrite i d).ht = Memory.write 0 s.ht i.toNat d := rfl
@[simp] theorem tabWrite_htw (i : TableIndex) (d : Word64) :
    (s.tabWrite i d).htw = s.htw ||| BitVec.twoPow 2048 i.toNat := rfl
@[simp] theorem tabWrite_bank0 (i : TableIndex) (d : Word64) :
    (s.tabWrite i d).bank0 = s.bank0 := rfl
@[simp] theorem tabWrite_bank1 (i : TableIndex) (d : Word64) :
    (s.tabWrite i d).bank1 = s.bank1 := rfl
@[simp] theorem tabWrite_active (i : TableIndex) (d : Word64) :
    (s.tabWrite i d).active = s.active := rfl
@[simp] theorem tabWrite_rspPending (i : TableIndex) (d : Word64) :
    (s.tabWrite i d).rspPending = s.rspPending := rfl
@[simp] theorem tabWrite_rsp (i : TableIndex) (d : Word64) :
    (s.tabWrite i d).rsp = s.rsp := rfl
@[simp] theorem tabWrite_faultCause (i : TableIndex) (d : Word64) :
    (s.tabWrite i d).faultCause = s.faultCause := rfl
@[simp] theorem tabWrite_faultOp (i : TableIndex) (d : Word64) :
    (s.tabWrite i d).faultOp = s.faultOp := rfl
@[simp] theorem tabWrite_faultKey (i : TableIndex) (d : Word64) :
    (s.tabWrite i d).faultKey = s.faultKey := rfl
@[simp] theorem tabWrite_htIndex (i : TableIndex) (d : Word64) :
    (s.tabWrite i d).htIndex = s.htIndex := rfl
@[simp] theorem tabWrite_slotIndex (i : TableIndex) (d : Word64) :
    (s.tabWrite i d).slotIndex = s.slotIndex := rfl
@[simp] theorem tabWrite_dp (i : TableIndex) (d : Word64) :
    (s.tabWrite i d).dp = s.dp := rfl
@[simp] theorem tabWrite_reply (i : TableIndex) (d : Word64) :
    (s.tabWrite i d).reply = s.reply := rfl
@[simp] theorem tabWrite_capMax (i : TableIndex) (d : Word64) :
    (s.tabWrite i d).capMax = s.capMax := rfl
@[simp] theorem tabWrite_lookupEmptyStop (i : TableIndex) (d : Word64) :
    (s.tabWrite i d).lookupEmptyStop = s.lookupEmptyStop := rfl
@[simp] theorem tabWrite_inputs (i : TableIndex) (d : Word64) :
    (s.tabWrite i d).inputs = s.inputs := rfl
@[simp] theorem tabWrite_freeCtr (i : TableIndex) (d : Word64) :
    (s.tabWrite i d).freeCtr = s.freeCtr := rfl

/-! ### answer -/

@[simp] theorem answer_mode (d : Word64) (e : Bool) :
    (s.answer d e).mode = s.mode := rfl
@[simp] theorem answer_initCapacity (d : Word64) (e : Bool) :
    (s.answer d e).initCapacity = s.initCapacity := rfl
@[simp] theorem answer_growThr (d : Word64) (e : Bool) :
    (s.answer d e).growThr = s.growThr := rfl
@[simp] theorem answer_shrinkThr (d : Word64) (e : Bool) :
    (s.answer d e).shrinkThr = s.shrinkThr := rfl
@[simp] theorem answer_capacity (d : Word64) (e : Bool) :
    (s.answer d e).capacity = s.capacity := rfl
@[simp] theorem answer_filled (d : Word64) (e : Bool) :
    (s.answer d e).filled = s.filled := rfl
@[simp] theorem answer_removed (d : Word64) (e : Bool) :
    (s.answer d e).removed = s.removed := rfl
@[simp] theorem answer_ht (d : Word64) (e : Bool) :
    (s.answer d e).ht = s.ht := rfl
@[simp] theorem answer_htw (d : Word64) (e : Bool) :
    (s.answer d e).htw = s.htw := rfl
@[simp] theorem answer_bank0 (d : Word64) (e : Bool) :
    (s.answer d e).bank0 = s.bank0 := rfl
@[simp] theorem answer_bank1 (d : Word64) (e : Bool) :
    (s.answer d e).bank1 = s.bank1 := rfl
@[simp] theorem answer_active (d : Word64) (e : Bool) :
    (s.answer d e).active = s.active := rfl
@[simp] theorem answer_rspPending (d : Word64) (e : Bool) :
    (s.answer d e).rspPending = s.rspPending := rfl
@[simp] theorem answer_rsp (d : Word64) (e : Bool) :
    (s.answer d e).rsp = s.rsp := rfl
@[simp] theorem answer_faultCause (d : Word64) (e : Bool) :
    (s.answer d e).faultCause = s.faultCause := rfl
@[simp] theorem answer_faultOp (d : Word64) (e : Bool) :
    (s.answer d e).faultOp = s.faultOp := rfl
@[simp] theorem answer_faultKey (d : Word64) (e : Bool) :
    (s.answer d e).faultKey = s.faultKey := rfl
@[simp] theorem answer_htIndex (d : Word64) (e : Bool) :
    (s.answer d e).htIndex = s.htIndex := rfl
@[simp] theorem answer_slotIndex (d : Word64) (e : Bool) :
    (s.answer d e).slotIndex = s.slotIndex := rfl
@[simp] theorem answer_dp (d : Word64) (e : Bool) :
    (s.answer d e).dp = s.dp := rfl
@[simp] theorem answer_reply (d : Word64) (e : Bool) :
    (s.answer d e).reply = some ⟨d, e⟩ := rfl
@[simp] theorem answer_capMax (d : Word64) (e : Bool) :
    (s.answer d e).capMax = s.capMax := rfl
@[simp] theorem answer_lookupEmptyStop (d : Word64) (e : Bool) :
    (s.answer d e).lookupEmptyStop = s.lookupEmptyStop := rfl
@[simp] theorem answer_inputs (d : Word64) (e : Bool) :
    (s.answer d e).inputs = s.inputs := rfl
@[simp] theorem answer_freeCtr (d : Word64) (e : Bool) :
    (s.answer d e).freeCtr = s.freeCtr := rfl

/-! ### refuse -/

@[simp] theorem refuse_mode :
    (s.refuse).mode = s.mode := rfl
@[simp] theorem refuse_initCapacity :
    (s.refuse).initCapacity = s.initCapacity := rfl
@[simp] theorem refuse_growThr :
    (s.refuse).growThr = s.growThr := rfl
@[simp] theorem refuse_shrinkThr :
    (s.refuse).shrinkThr = s.shrinkThr := rfl
@[simp] theorem refuse_capacity :
    (s.refuse).capacity = s.capacity := rfl
@[simp] theorem refuse_filled :
    (s.refuse).filled = s.filled := rfl
@[simp] theorem refuse_removed :
    (s.refuse).removed = s.removed := rfl
@[simp] theorem refuse_ht :
    (s.refuse).ht = s.ht := rfl
@[simp] theorem refuse_htw :
    (s.refuse).htw = s.htw := rfl
@[simp] theorem refuse_bank0 :
    (s.refuse).bank0 = s.bank0 := rfl
@[simp] theorem refuse_bank1 :
    (s.refuse).bank1 = s.bank1 := rfl
@[simp] theorem refuse_active :
    (s.refuse).active = s.active := rfl
@[simp] theorem refuse_rspPending :
    (s.refuse).rspPending = s.rspPending := rfl
@[simp] theorem refuse_rsp :
    (s.refuse).rsp = s.rsp := rfl
@[simp] theorem refuse_faultCause :
    (s.refuse).faultCause = s.faultCause := rfl
@[simp] theorem refuse_faultOp :
    (s.refuse).faultOp = s.faultOp := rfl
@[simp] theorem refuse_faultKey :
    (s.refuse).faultKey = s.faultKey := rfl
@[simp] theorem refuse_htIndex :
    (s.refuse).htIndex = s.htIndex := rfl
@[simp] theorem refuse_slotIndex :
    (s.refuse).slotIndex = s.slotIndex := rfl
@[simp] theorem refuse_dp :
    (s.refuse).dp = s.dp := rfl
@[simp] theorem refuse_reply :
    (s.refuse).reply = some ⟨0, true⟩ := rfl
@[simp] theorem refuse_capMax :
    (s.refuse).capMax = s.capMax := rfl
@[simp] theorem refuse_lookupEmptyStop :
    (s.refuse).lookupEmptyStop = s.lookupEmptyStop := rfl
@[simp] theorem refuse_inputs :
    (s.refuse).inputs = s.inputs := rfl
@[simp] theorem refuse_freeCtr :
    (s.refuse).freeCtr = s.freeCtr := rfl

/-! ### nextFree -/

@[simp] theorem nextFree_mode :
    (s.nextFree).mode = s.mode := rfl
@[simp] theorem nextFree_initCapacity :
    (s.nextFree).initCapacity = s.initCapacity := rfl
@[simp] theorem nextFree_growThr :
    (s.nextFree).growThr = s.growThr := rfl
@[simp] theorem nextFree_shrinkThr :
    (s.nextFree).shrinkThr = s.shrinkThr := rfl
@[simp] theorem nextFree_capacity :
    (s.nextFree).capacity = s.capacity := rfl
@[simp] theorem nextFree_filled :
    (s.nextFree).filled = s.filled := rfl
@[simp] theorem nextFree_removed :
    (s.nextFree).removed = s.removed := rfl
@[simp] theorem nextFree_ht :
    (s.nextFree).ht = s.ht := rfl
@[simp] theorem nextFree_htw :
    (s.nextFree).htw = s.htw := rfl
@[simp] theorem nextFree_bank0 :
    (s.nextFree).bank0 = s.bank0 := rfl
@[simp] theorem nextFree_bank1 :
    (s.nextFree).bank1 = s.bank1 := rfl
@[simp] theorem nextFree_active :
    (s.nextFree).active = s.active := rfl
@[simp] theorem nextFree_rspPending :
    (s.nextFree).rspPending = s.rspPending := rfl
@[simp] theorem nextFree_rsp :
    (s.nextFree).rsp = s.rsp := rfl
@[simp] theorem nextFree_faultCause :
    (s.nextFree).faultCause = s.faultCause := rfl
@[simp] theorem nextFree_faultOp :
    (s.nextFree).faultOp = s.faultOp := rfl
@[simp] theorem nextFree_faultKey :
    (s.nextFree).faultKey = s.faultKey := rfl
@[simp] theorem nextFree_htIndex :
    (s.nextFree).htIndex = s.htIndex := rfl
@[simp] theorem nextFree_slotIndex :
    (s.nextFree).slotIndex = s.slotIndex := rfl
@[simp] theorem nextFree_dp :
    (s.nextFree).dp = s.dp := rfl
@[simp] theorem nextFree_reply :
    (s.nextFree).reply = s.reply := rfl
@[simp] theorem nextFree_capMax :
    (s.nextFree).capMax = s.capMax := rfl
@[simp] theorem nextFree_lookupEmptyStop :
    (s.nextFree).lookupEmptyStop = s.lookupEmptyStop := rfl
@[simp] theorem nextFree_inputs :
    (s.nextFree).inputs = s.inputs := rfl
@[simp] theorem nextFree_freeCtr :
    (s.nextFree).freeCtr = s.freeCtr + 1 := rfl

/-! ### raiseFault -/

@[simp] theorem raiseFault_mode (c : Cause) (op : BitVec 2) (key : Word64) :
    (raiseFault c op key s).mode = .fault := rfl
@[simp] theorem raiseFault_initCapacity (c : Cause) (op : BitVec 2) (key : Word64) :
    (raiseFault c op key s).initCapacity = s.initCapacity := rfl
@[simp] theorem raiseFault_growThr (c : Cause) (op : BitVec 2) (key : Word64) :
    (raiseFault c op key s).growThr = s.growThr := rfl
@[simp] theorem raiseFault_shrinkThr (c : Cause) (op : BitVec 2) (key : Word64) :
    (raiseFault c op key s).shrinkThr = s.shrinkThr := rfl
@[simp] theorem raiseFault_capacity (c : Cause) (op : BitVec 2) (key : Word64) :
    (raiseFault c op key s).capacity = s.capacity := rfl
@[simp] theorem raiseFault_filled (c : Cause) (op : BitVec 2) (key : Word64) :
    (raiseFault c op key s).filled = s.filled := rfl
@[simp] theorem raiseFault_removed (c : Cause) (op : BitVec 2) (key : Word64) :
    (raiseFault c op key s).removed = s.removed := rfl
@[simp] theorem raiseFault_ht (c : Cause) (op : BitVec 2) (key : Word64) :
    (raiseFault c op key s).ht = s.ht := rfl
@[simp] theorem raiseFault_htw (c : Cause) (op : BitVec 2) (key : Word64) :
    (raiseFault c op key s).htw = s.htw := rfl
@[simp] theorem raiseFault_bank0 (c : Cause) (op : BitVec 2) (key : Word64) :
    (raiseFault c op key s).bank0 = s.bank0 := rfl
@[simp] theorem raiseFault_bank1 (c : Cause) (op : BitVec 2) (key : Word64) :
    (raiseFault c op key s).bank1 = s.bank1 := rfl
@[simp] theorem raiseFault_active (c : Cause) (op : BitVec 2) (key : Word64) :
    (raiseFault c op key s).active = s.active := rfl
@[simp] theorem raiseFault_rspPending (c : Cause) (op : BitVec 2) (key : Word64) :
    (raiseFault c op key s).rspPending = s.rspPending := rfl
@[simp] theorem raiseFault_rsp (c : Cause) (op : BitVec 2) (key : Word64) :
    (raiseFault c op key s).rsp = s.rsp := rfl
@[simp] theorem raiseFault_faultCause (c : Cause) (op : BitVec 2) (key : Word64) :
    (raiseFault c op key s).faultCause = c := rfl
@[simp] theorem raiseFault_faultOp (c : Cause) (op : BitVec 2) (key : Word64) :
    (raiseFault c op key s).faultOp = op := rfl
@[simp] theorem raiseFault_faultKey (c : Cause) (op : BitVec 2) (key : Word64) :
    (raiseFault c op key s).faultKey = key := rfl
@[simp] theorem raiseFault_htIndex (c : Cause) (op : BitVec 2) (key : Word64) :
    (raiseFault c op key s).htIndex = s.htIndex := rfl
@[simp] theorem raiseFault_slotIndex (c : Cause) (op : BitVec 2) (key : Word64) :
    (raiseFault c op key s).slotIndex = s.slotIndex := rfl
@[simp] theorem raiseFault_dp (c : Cause) (op : BitVec 2) (key : Word64) :
    (raiseFault c op key s).dp = Datapath.idle := rfl
@[simp] theorem raiseFault_reply (c : Cause) (op : BitVec 2) (key : Word64) :
    (raiseFault c op key s).reply = s.reply := rfl
@[simp] theorem raiseFault_capMax (c : Cause) (op : BitVec 2) (key : Word64) :
    (raiseFault c op key s).capMax = s.capMax := rfl
@[simp] theorem raiseFault_lookupEmptyStop (c : Cause) (op : BitVec 2) (key : Word64) :
    (raiseFault c op key s).lookupEmptyStop = s.lookupEmptyStop := rfl
@[simp] theorem raiseFault_inputs (c : Cause) (op : BitVec 2) (key : Word64) :
    (raiseFault c op key s).inputs = s.inputs := rfl
@[simp] theorem raiseFault_freeCtr (c : Cause) (op : BitVec 2) (key : Word64) :
    (raiseFault c op key s).freeCtr = s.freeCtr := rfl

/-! ### respond -/

@[simp] theorem respond_mode (r : Response) :
    (respond r s).mode = s.mode := rfl
@[simp] theorem respond_initCapacity (r : Response) :
    (respond r s).initCapacity = s.initCapacity := rfl
@[simp] theorem respond_growThr (r : Response) :
    (respond r s).growThr = s.growThr := rfl
@[simp] theorem respond_shrinkThr (r : Response) :
    (respond r s).shrinkThr = s.shrinkThr := rfl
@[simp] theorem respond_capacity (r : Response) :
    (respond r s).capacity = s.capacity := rfl
@[simp] theorem respond_filled (r : Response) :
    (respond r s).filled = s.filled := rfl
@[simp] theorem respond_removed (r : Response) :
    (respond r s).removed = s.removed := rfl
@[simp] theorem respond_ht (r : Response) :
    (respond r s).ht = s.ht := rfl
@[simp] theorem respond_htw (r : Response) :
    (respond r s).htw = s.htw := rfl
@[simp] theorem respond_bank0 (r : Response) :
    (respond r s).bank0 = s.bank0 := rfl
@[simp] theorem respond_bank1 (r : Response) :
    (respond r s).bank1 = s.bank1 := rfl
@[simp] theorem respond_active (r : Response) :
    (respond r s).active = s.active := rfl
@[simp] theorem respond_rspPending (r : Response) :
    (respond r s).rspPending = true := rfl
@[simp] theorem respond_rsp (r : Response) :
    (respond r s).rsp = r := rfl
@[simp] theorem respond_faultCause (r : Response) :
    (respond r s).faultCause = s.faultCause := rfl
@[simp] theorem respond_faultOp (r : Response) :
    (respond r s).faultOp = s.faultOp := rfl
@[simp] theorem respond_faultKey (r : Response) :
    (respond r s).faultKey = s.faultKey := rfl
@[simp] theorem respond_htIndex (r : Response) :
    (respond r s).htIndex = s.htIndex := rfl
@[simp] theorem respond_slotIndex (r : Response) :
    (respond r s).slotIndex = s.slotIndex := rfl
@[simp] theorem respond_dp (r : Response) :
    (respond r s).dp = Datapath.idle := rfl
@[simp] theorem respond_reply (r : Response) :
    (respond r s).reply = s.reply := rfl
@[simp] theorem respond_capMax (r : Response) :
    (respond r s).capMax = s.capMax := rfl
@[simp] theorem respond_lookupEmptyStop (r : Response) :
    (respond r s).lookupEmptyStop = s.lookupEmptyStop := rfl
@[simp] theorem respond_inputs (r : Response) :
    (respond r s).inputs = s.inputs := rfl
@[simp] theorem respond_freeCtr (r : Response) :
    (respond r s).freeCtr = s.freeCtr := rfl

/-! ### startTable -/

@[simp] theorem startTable_mode :
    (startTable s).mode = .run := rfl
@[simp] theorem startTable_initCapacity :
    (startTable s).initCapacity = s.initCapacity := rfl
@[simp] theorem startTable_growThr :
    (startTable s).growThr = s.growThr := rfl
@[simp] theorem startTable_shrinkThr :
    (startTable s).shrinkThr = s.shrinkThr := rfl
@[simp] theorem startTable_capacity :
    (startTable s).capacity = s.initCapacity := rfl
@[simp] theorem startTable_filled :
    (startTable s).filled = 0 := rfl
@[simp] theorem startTable_removed :
    (startTable s).removed = 0 := rfl
@[simp] theorem startTable_ht :
    (startTable s).ht = s.ht := rfl
@[simp] theorem startTable_htw :
    (startTable s).htw = s.htw := rfl
@[simp] theorem startTable_bank0 :
    (startTable s).bank0 = Memory.clearBelow s.initCapacity.toNat s.bank0 := rfl
@[simp] theorem startTable_bank1 :
    (startTable s).bank1 = s.bank1 := rfl
@[simp] theorem startTable_active :
    (startTable s).active = 0 := rfl
@[simp] theorem startTable_rspPending :
    (startTable s).rspPending = s.rspPending := rfl
@[simp] theorem startTable_rsp :
    (startTable s).rsp = s.rsp := rfl
@[simp] theorem startTable_faultCause :
    (startTable s).faultCause = s.faultCause := rfl
@[simp] theorem startTable_faultOp :
    (startTable s).faultOp = s.faultOp := rfl
@[simp] theorem startTable_faultKey :
    (startTable s).faultKey = s.faultKey := rfl
@[simp] theorem startTable_htIndex :
    (startTable s).htIndex = s.htIndex := rfl
@[simp] theorem startTable_slotIndex :
    (startTable s).slotIndex = s.slotIndex := rfl
@[simp] theorem startTable_dp :
    (startTable s).dp = s.dp := rfl
@[simp] theorem startTable_reply :
    (startTable s).reply = s.reply := rfl
@[simp] theorem startTable_capMax :
    (startTable s).capMax = s.capMax := rfl
@[simp] theorem startTable_lookupEmptyStop :
    (startTable s).lookupEmptyStop = s.lookupEmptyStop := rfl
@[simp] theorem startTable_inputs :
    (startTable s).inputs = s.inputs := rfl
@[simp] theorem startTable_freeCtr :
    (startTable s).freeCtr = s.freeCtr := rfl

/-! ### softReset -/

@[simp] theorem softReset_mode :
    (softReset s).mode = .config := rfl
@[simp] theorem softReset_initCapacity :
    (softReset s).initCapacity = s.initCapacity := rfl
@[simp] theorem softReset_growThr :
    (softReset s).growThr = s.growThr := rfl
@[simp] theorem softReset_shrinkThr :
    (softReset s).shrinkThr = s.shrinkThr := rfl
@[simp] theorem softReset_capacity :
    (softReset s).capacity = 0 := rfl
@[simp] theorem softReset_filled :
    (softReset s).filled = 0 := rfl
@[simp] theorem softReset_removed :
    (softReset s).removed = 0 := rfl
@[simp] theorem softReset_ht :
    (softReset s).ht = s.ht := rfl
@[simp] theorem softReset_htw :
    (softReset s).htw = s.htw := rfl
@[simp] theorem softReset_bank0 :
    (softReset s).bank0 = s.bank0 := rfl
@[simp] theorem softReset_bank1 :
    (softReset s).bank1 = s.bank1 := rfl
@[simp] theorem softReset_active :
    (softReset s).active = 0 := rfl
@[simp] theorem softReset_rspPending :
    (softReset s).rspPending = false := rfl
@[simp] theorem softReset_rsp :
    (softReset s).rsp = Config.unspecifiedRsp s.freeCtr := rfl
@[simp] theorem softReset_faultCause :
    (softReset s).faultCause = .none := rfl
@[simp] theorem softReset_faultOp :
    (softReset s).faultOp = 0 := rfl
@[simp] theorem softReset_faultKey :
    (softReset s).faultKey = 0 := rfl
@[simp] theorem softReset_htIndex :
    (softReset s).htIndex = 0 := rfl
@[simp] theorem softReset_slotIndex :
    (softReset s).slotIndex = 0 := rfl
@[simp] theorem softReset_dp :
    (softReset s).dp = s.dp := rfl
@[simp] theorem softReset_reply :
    (softReset s).reply = s.reply := rfl
@[simp] theorem softReset_capMax :
    (softReset s).capMax = s.capMax := rfl
@[simp] theorem softReset_lookupEmptyStop :
    (softReset s).lookupEmptyStop = s.lookupEmptyStop := rfl
@[simp] theorem softReset_inputs :
    (softReset s).inputs = s.inputs := rfl
@[simp] theorem softReset_freeCtr :
    (softReset s).freeCtr = s.freeCtr + 1 := rfl

/-! ### advance -/

@[simp] theorem advance_mode :
    (s.advance).mode = s.mode := rfl
@[simp] theorem advance_initCapacity :
    (s.advance).initCapacity = s.initCapacity := rfl
@[simp] theorem advance_growThr :
    (s.advance).growThr = s.growThr := rfl
@[simp] theorem advance_shrinkThr :
    (s.advance).shrinkThr = s.shrinkThr := rfl
@[simp] theorem advance_capacity :
    (s.advance).capacity = s.capacity := rfl
@[simp] theorem advance_filled :
    (s.advance).filled = s.filled := rfl
@[simp] theorem advance_removed :
    (s.advance).removed = s.removed := rfl
@[simp] theorem advance_ht :
    (s.advance).ht = s.ht := rfl
@[simp] theorem advance_htw :
    (s.advance).htw = s.htw := rfl
@[simp] theorem advance_bank0 :
    (s.advance).bank0 = s.bank0 := rfl
@[simp] theorem advance_bank1 :
    (s.advance).bank1 = s.bank1 := rfl
@[simp] theorem advance_active :
    (s.advance).active = s.active := rfl
@[simp] theorem advance_rspPending :
    (s.advance).rspPending = s.rspPending := rfl
@[simp] theorem advance_rsp :
    (s.advance).rsp = s.rsp := rfl
@[simp] theorem advance_faultCause :
    (s.advance).faultCause = s.faultCause := rfl
@[simp] theorem advance_faultOp :
    (s.advance).faultOp = s.faultOp := rfl
@[simp] theorem advance_faultKey :
    (s.advance).faultKey = s.faultKey := rfl
@[simp] theorem advance_htIndex :
    (s.advance).htIndex = s.htIndex := rfl
@[simp] theorem advance_slotIndex :
    (s.advance).slotIndex = s.slotIndex := rfl
@[simp] theorem advance_dp :
    (s.advance).dp = s.dp := rfl
@[simp] theorem advance_reply :
    (s.advance).reply = none := rfl
@[simp] theorem advance_capMax :
    (s.advance).capMax = s.capMax := rfl
@[simp] theorem advance_lookupEmptyStop :
    (s.advance).lookupEmptyStop = s.lookupEmptyStop := rfl
@[simp] theorem advance_inputs :
    (s.advance).inputs = s.inputs.tail := rfl
@[simp] theorem advance_freeCtr :
    (s.advance).freeCtr = s.freeCtr := rfl

/-! ### handOver -/

@[simp] theorem handOver_mode :
    (handOver s).mode = s.mode := rfl
@[simp] theorem handOver_initCapacity :
    (handOver s).initCapacity = s.initCapacity := rfl
@[simp] theorem handOver_growThr :
    (handOver s).growThr = s.growThr := rfl
@[simp] theorem handOver_shrinkThr :
    (handOver s).shrinkThr = s.shrinkThr := rfl
@[simp] theorem handOver_capacity :
    (handOver s).capacity = s.capacity := rfl
@[simp] theorem handOver_filled :
    (handOver s).filled = s.filled := rfl
@[simp] theorem handOver_removed :
    (handOver s).removed = s.removed := rfl
@[simp] theorem handOver_ht :
    (handOver s).ht = s.ht := rfl
@[simp] theorem handOver_htw :
    (handOver s).htw = s.htw := rfl
@[simp] theorem handOver_bank0 :
    (handOver s).bank0 = s.bank0 := rfl
@[simp] theorem handOver_bank1 :
    (handOver s).bank1 = s.bank1 := rfl
@[simp] theorem handOver_active :
    (handOver s).active = s.active := rfl
@[simp] theorem handOver_rspPending :
    (handOver s).rspPending = false := rfl
@[simp] theorem handOver_rsp :
    (handOver s).rsp = s.rsp := rfl
@[simp] theorem handOver_faultCause :
    (handOver s).faultCause = s.faultCause := rfl
@[simp] theorem handOver_faultOp :
    (handOver s).faultOp = s.faultOp := rfl
@[simp] theorem handOver_faultKey :
    (handOver s).faultKey = s.faultKey := rfl
@[simp] theorem handOver_htIndex :
    (handOver s).htIndex = s.htIndex := rfl
@[simp] theorem handOver_slotIndex :
    (handOver s).slotIndex = s.slotIndex := rfl
@[simp] theorem handOver_dp :
    (handOver s).dp = s.dp := rfl
@[simp] theorem handOver_reply :
    (handOver s).reply = s.reply := rfl
@[simp] theorem handOver_capMax :
    (handOver s).capMax = s.capMax := rfl
@[simp] theorem handOver_lookupEmptyStop :
    (handOver s).lookupEmptyStop = s.lookupEmptyStop := rfl
@[simp] theorem handOver_inputs :
    (handOver s).inputs = s.inputs := rfl
@[simp] theorem handOver_freeCtr :
    (handOver s).freeCtr = s.freeCtr := rfl

/-! ### takeResponse -/

/-- The response port clears RSP_PENDING when rsp_ready is 1, and does nothing else. -/
theorem takeResponse_eq :
    takeResponse s = { s with rspPending := s.rspPending && !s.pins.rspReady } := by
  unfold takeResponse State.transfersResponse handOver
  generalize s.pins.rspReady = ready
  cases h : s.rspPending <;> cases ready <;> simp [← h]

@[simp] theorem takeResponse_mode :
    (takeResponse s).mode = s.mode := by rw [takeResponse_eq]
@[simp] theorem takeResponse_initCapacity :
    (takeResponse s).initCapacity = s.initCapacity := by rw [takeResponse_eq]
@[simp] theorem takeResponse_growThr :
    (takeResponse s).growThr = s.growThr := by rw [takeResponse_eq]
@[simp] theorem takeResponse_shrinkThr :
    (takeResponse s).shrinkThr = s.shrinkThr := by rw [takeResponse_eq]
@[simp] theorem takeResponse_capacity :
    (takeResponse s).capacity = s.capacity := by rw [takeResponse_eq]
@[simp] theorem takeResponse_filled :
    (takeResponse s).filled = s.filled := by rw [takeResponse_eq]
@[simp] theorem takeResponse_removed :
    (takeResponse s).removed = s.removed := by rw [takeResponse_eq]
@[simp] theorem takeResponse_ht :
    (takeResponse s).ht = s.ht := by rw [takeResponse_eq]
@[simp] theorem takeResponse_htw :
    (takeResponse s).htw = s.htw := by rw [takeResponse_eq]
@[simp] theorem takeResponse_bank0 :
    (takeResponse s).bank0 = s.bank0 := by rw [takeResponse_eq]
@[simp] theorem takeResponse_bank1 :
    (takeResponse s).bank1 = s.bank1 := by rw [takeResponse_eq]
@[simp] theorem takeResponse_active :
    (takeResponse s).active = s.active := by rw [takeResponse_eq]
@[simp] theorem takeResponse_rsp :
    (takeResponse s).rsp = s.rsp := by rw [takeResponse_eq]
@[simp] theorem takeResponse_faultCause :
    (takeResponse s).faultCause = s.faultCause := by rw [takeResponse_eq]
@[simp] theorem takeResponse_faultOp :
    (takeResponse s).faultOp = s.faultOp := by rw [takeResponse_eq]
@[simp] theorem takeResponse_faultKey :
    (takeResponse s).faultKey = s.faultKey := by rw [takeResponse_eq]
@[simp] theorem takeResponse_htIndex :
    (takeResponse s).htIndex = s.htIndex := by rw [takeResponse_eq]
@[simp] theorem takeResponse_slotIndex :
    (takeResponse s).slotIndex = s.slotIndex := by rw [takeResponse_eq]
@[simp] theorem takeResponse_dp :
    (takeResponse s).dp = s.dp := by rw [takeResponse_eq]
@[simp] theorem takeResponse_reply :
    (takeResponse s).reply = s.reply := by rw [takeResponse_eq]
@[simp] theorem takeResponse_capMax :
    (takeResponse s).capMax = s.capMax := by rw [takeResponse_eq]
@[simp] theorem takeResponse_lookupEmptyStop :
    (takeResponse s).lookupEmptyStop = s.lookupEmptyStop := by rw [takeResponse_eq]
@[simp] theorem takeResponse_inputs :
    (takeResponse s).inputs = s.inputs := by rw [takeResponse_eq]
@[simp] theorem takeResponse_freeCtr :
    (takeResponse s).freeCtr = s.freeCtr := by rw [takeResponse_eq]
@[simp] theorem takeResponse_rspPending :
    (takeResponse s).rspPending = (s.rspPending && !s.pins.rspReady) := by rw [takeResponse_eq]

/-! ### Banks -/

/-- The two one-bit numbers. -/
theorem bit_cases (b : BitVec 1) : b = 0 ∨ b = 1 := by
  rcases Nat.lt_or_ge b.toNat 1 with h | h
  · exact .inl (BitVec.eq_of_toNat_eq (by simpa using h))
  · exact .inr (BitVec.eq_of_toNat_eq (by have := b.isLt; simp; omega))

/-- The inactive bank is the other one. -/
theorem one_sub_ne (b : BitVec 1) : 1 - b ≠ b := by
  rcases bit_cases b with rfl | rfl <;> decide

@[simp] theorem bank_setBank_same (b : BitVec 1) (m : Memory Slot) : (s.setBank b m).bank b = m := by
  unfold State.setBank State.bank; split <;> simp_all

theorem bank_setBank_other {b b' : BitVec 1} (h : b ≠ b') (m : Memory Slot) :
    (s.setBank b m).bank b' = s.bank b' := by
  rcases bit_cases b with rfl | rfl <;> rcases bit_cases b' with rfl | rfl <;>
    first
    | exact absurd rfl h
    | rfl

@[simp] theorem bank_slotWrite_same (b : BitVec 1) (i : Nat) (v : Slot) :
    (s.slotWrite b i v).bank b = Memory.write .empty (s.bank b) i v := by
  simp [State.slotWrite]

theorem bank_slotWrite_other {b b' : BitVec 1} (h : b ≠ b') (i : Nat) (v : Slot) :
    (s.slotWrite b i v).bank b' = s.bank b' := bank_setBank_other s h _

/-- The bank read depends on the two banks alone. -/
theorem bank_congr {s t : State} (h0 : t.bank0 = s.bank0) (h1 : t.bank1 = s.bank1) (b : BitVec 1) :
    t.bank b = s.bank b := by
  unfold State.bank; rw [h0, h1]

end Sys2Proof.Machine
end

