-- ==== Sys2Proof/Laws/Ops.lean ====
section
/-! SUPPORT. What each shared operation can do, said once: the probes, the rebuild and compaction
loops, the sequences after a slot write, the ports. -/

namespace Sys2Proof.Machine

/-! ### Probes -/

section Probes

variable {m : Memory Slot} {home c : Nat} {hit stop : Slot → Bool}

/-- The slot a probe examines at offset `off` (41_probe_cam.md R501). -/
abbrev probedSlot (m : Memory Slot) (home c off : Nat) : Slot :=
  Memory.read .empty m ((home + off) % c)

/-- A probe ends at its first slot with `hit`, at its first with `stop`, or after all its slots. -/
theorem probeFrom_cases (n off : Nat) :
    (∃ k < n, hit (probedSlot m home c (off + k)) = true
        ∧ (∀ o < k, hit (probedSlot m home c (off + o)) = false
            ∧ stop (probedSlot m home c (off + o)) = false)
        ∧ probeFrom m home c hit stop n off = ⟨some ((home + (off + k)) % c), off + k⟩)
    ∨ (∃ k < n, hit (probedSlot m home c (off + k)) = false
        ∧ stop (probedSlot m home c (off + k)) = true
        ∧ (∀ o < k, hit (probedSlot m home c (off + o)) = false
            ∧ stop (probedSlot m home c (off + o)) = false)
        ∧ probeFrom m home c hit stop n off = ⟨none, off + k⟩)
    ∨ ((∀ o < n, hit (probedSlot m home c (off + o)) = false
            ∧ stop (probedSlot m home c (off + o)) = false)
        ∧ probeFrom m home c hit stop n off = ⟨none, off + n⟩) := by
  induction n generalizing off with
  | zero => exact .inr (.inr ⟨fun o ho => absurd ho (Nat.not_lt_zero o), rfl⟩)
  | succ n ih =>
    have here : probeFrom m home c hit stop (n + 1) off
        = if hit (probedSlot m home c off) then ⟨some ((home + off) % c), off⟩
          else if stop (probedSlot m home c off) then ⟨none, off⟩
          else probeFrom m home c hit stop n (off + 1) := rfl
    rw [here]
    have shift : ∀ k, off + 1 + k = off + (k + 1) := fun k => by omega
    have extend : ∀ {k : Nat}, hit (probedSlot m home c off) = false →
        stop (probedSlot m home c off) = false →
        (∀ o < k, hit (probedSlot m home c (off + 1 + o)) = false
          ∧ stop (probedSlot m home c (off + 1 + o)) = false) →
        ∀ o < k + 1, hit (probedSlot m home c (off + o)) = false
          ∧ stop (probedSlot m home c (off + o)) = false := by
      intro k h0 h1 h o ho
      cases o with
      | zero => exact ⟨h0, h1⟩
      | succ o => rw [← shift o]; exact h o (by omega)
    cases hh : hit (probedSlot m home c off) with
    | true => exact .inl ⟨0, by omega, hh, fun o ho => absurd ho (Nat.not_lt_zero o), rfl⟩
    | false =>
      cases hs : stop (probedSlot m home c off) with
      | true =>
        exact .inr (.inl ⟨0, by omega, hh, hs, fun o ho => absurd ho (Nat.not_lt_zero o), rfl⟩)
      | false =>
        simp only [Bool.false_eq_true, if_false]
        rcases ih (off + 1) with ⟨k, hk, hhit, hb, e⟩ | ⟨k, hk, hhit, hst, hb, e⟩ | ⟨hb, e⟩
        · rw [shift k] at hhit e
          exact .inl ⟨k + 1, by omega, hhit, extend hh hs hb, e⟩
        · rw [shift k] at hhit hst e
          exact .inr (.inl ⟨k + 1, by omega, hhit, hst, extend hh hs hb, e⟩)
        · rw [shift n] at e
          exact .inr (.inr ⟨extend hh hs hb, e⟩)

/-- A probe whose first ending slot has `hit`. -/
theorem probeFrom_eq_found {off : Nat} (ho : off < c) (hh : hit (probedSlot m home c off) = true)
    (hb : ∀ o < off, hit (probedSlot m home c o) = false
      ∧ stop (probedSlot m home c o) = false) :
    probeFrom m home c hit stop c 0 = ⟨some ((home + off) % c), off⟩ := by
  rcases probeFrom_cases (m := m) (home := home) (c := c) (hit := hit) (stop := stop) c 0 with
    ⟨k, hk, h1, h2, e⟩ | ⟨k, hk, h1, h2, h3, e⟩ | ⟨h1, -⟩
  · simp only [Nat.zero_add] at h1 h2 e
    have : k = off := by
      rcases Nat.lt_trichotomy k off with h | h | h
      · rw [(hb k h).1] at h1; cases h1
      · exact h
      · rw [(h2 off h).1] at hh; cases hh
    subst this; exact e
  · simp only [Nat.zero_add] at h1 h2 h3
    rcases Nat.lt_trichotomy k off with h | h | h
    · rw [(hb k h).2] at h2; cases h2
    · subst h; rw [h1] at hh; cases hh
    · rw [(h3 off h).1] at hh; cases hh
  · have := (h1 off ho).1
    simp only [Nat.zero_add] at this
    rw [this] at hh; cases hh

/-- A probe that no slot ends. -/
theorem probeFrom_eq_none (hb : ∀ o < c, hit (probedSlot m home c o) = false
      ∧ stop (probedSlot m home c o) = false) :
    probeFrom m home c hit stop c 0 = ⟨none, c⟩ := by
  rcases probeFrom_cases (m := m) (home := home) (c := c) (hit := hit) (stop := stop) c 0 with
    ⟨k, hk, h1, -, -⟩ | ⟨k, hk, -, h2, -, -⟩ | ⟨-, e⟩
  · rw [Nat.zero_add, (hb k hk).1] at h1; cases h1
  · rw [Nat.zero_add, (hb k hk).2] at h2; cases h2
  · rw [Nat.zero_add] at e; exact e

/-- A probe whose first ending slot has `stop`. -/
theorem probeFrom_eq_stopped {off : Nat} (ho : off < c)
    (hh : hit (probedSlot m home c off) = false) (hst : stop (probedSlot m home c off) = true)
    (hb : ∀ o < off, hit (probedSlot m home c o) = false
      ∧ stop (probedSlot m home c o) = false) :
    probeFrom m home c hit stop c 0 = ⟨none, off⟩ := by
  rcases probeFrom_cases (m := m) (home := home) (c := c) (hit := hit) (stop := stop) c 0 with
    ⟨k, hk, h1, h2, -⟩ | ⟨k, hk, h1, h2, h3, e⟩ | ⟨h1, -⟩
  · simp only [Nat.zero_add] at h1 h2
    rcases Nat.lt_trichotomy k off with h | h | h
    · rw [(hb k h).1] at h1; cases h1
    · subst h; rw [hh] at h1; cases h1
    · rw [(h2 off h).2] at hst; cases hst
  · simp only [Nat.zero_add] at h1 h2 h3 e
    have : k = off := by
      rcases Nat.lt_trichotomy k off with h | h | h
      · rw [(hb k h).2] at h2; cases h2
      · exact h
      · rw [(h3 off h).2] at hst; cases hst
    subst this; exact e
  · have := (h1 off ho).2
    simp only [Nat.zero_add] at this
    rw [this] at hst; cases hst

/-- What PROBE_FREE finds is Empty, in range, and the first such in probe order. -/
theorem probeFree_found {p : Nat} (h : (probeFree m home c).found = some p) :
    ∃ off < c, p = (home + off) % c ∧ probedSlot m home c off = .empty
      ∧ (∀ o < off, probedSlot m home c o ≠ .empty)
      ∧ probeFree m home c = ⟨some p, off⟩ := by
  have he : ∀ v : Slot, v.isEmpty = true → v = .empty := fun v => by cases v <;> simp [Slot.isEmpty]
  unfold probeFree at h ⊢
  rcases probeFrom_cases (m := m) (home := home) (c := c) (hit := Slot.isEmpty)
    (stop := fun _ => false) c 0 with ⟨k, hk, h1, h2, e⟩ | ⟨k, -, -, h2, -⟩ | ⟨-, e⟩
  · rw [e] at h ⊢
    simp only [Nat.zero_add, Option.some.injEq] at h h1 h2 ⊢
    subst h
    refine ⟨k, hk, rfl, he _ h1, fun o ho hemp => ?_, rfl⟩
    have := (h2 o ho).1
    rw [hemp] at this; cases this
  · cases h2
  · rw [e] at h; cases h

/-- PROBE_FREE finds nothing exactly when no examined slot is Empty. -/
theorem probeFree_none : (probeFree m home c).found = none ↔
    ∀ o < c, probedSlot m home c o ≠ .empty := by
  have he : ∀ v : Slot, v.isEmpty = true ↔ v = .empty := fun v => by cases v <;> simp [Slot.isEmpty]
  constructor
  · intro h o ho hemp
    unfold probeFree at h
    rcases probeFrom_cases (m := m) (home := home) (c := c) (hit := Slot.isEmpty)
      (stop := fun _ => false) c 0 with ⟨k, hk, h1, h2, e⟩ | ⟨k, -, -, h2, -⟩ | ⟨h1, -⟩
    · rw [e] at h; cases h
    · cases h2
    · have := (h1 o ho).1
      rw [Nat.zero_add, hemp] at this; cases this
  · intro h
    unfold probeFree
    rw [probeFrom_eq_none]
    intro o ho
    refine ⟨?_, rfl⟩
    rw [← Bool.not_eq_true, he]
    exact h o ho

/-- What PROBE_KEY finds holds the key (41_probe_cam.md R506). -/
theorem probeKey_found {P : Bool} {k : Word64} {p : Nat}
    (h : (probeKey P m home c k).found = some p) :
    ∃ off < c, p = (home + off) % c ∧ probedSlot m home c off = .occupied k
      ∧ (∀ o < off, probedSlot m home c o ≠ .occupied k)
      ∧ probeKey P m home c k = ⟨some p, off⟩ := by
  have hk' : ∀ v : Slot, v.holds k = true → v = .occupied k := fun v => by
    cases v <;> simp [Slot.holds]
  unfold probeKey at h ⊢
  rcases probeFrom_cases (m := m) (home := home) (c := c) (hit := Slot.holds k)
    (stop := fun v => P && v.isEmpty) c 0 with ⟨j, hj, h1, h2, e⟩ | ⟨j, -, -, -, -, e⟩ | ⟨-, e⟩
  · rw [e] at h ⊢
    simp only [Nat.zero_add, Option.some.injEq] at h h1 h2 ⊢
    subst h
    refine ⟨j, hj, rfl, hk' _ h1, fun o ho hocc => ?_, rfl⟩
    have := (h2 o ho).1
    rw [hocc] at this
    simp [Slot.holds] at this
  · rw [e] at h; cases h
  · rw [e] at h; cases h

/-- A position found by a probe is below the capacity. -/
theorem probeFree_lt {p : Nat} (h : (probeFree m home c).found = some p) : p < c := by
  obtain ⟨off, ho, rfl, -⟩ := probeFree_found h
  exact Nat.mod_lt _ (by omega)

theorem probeKey_lt {P : Bool} {k : Word64} {p : Nat}
    (h : (probeKey P m home c k).found = some p) : p < c := by
  obtain ⟨off, ho, rfl, -⟩ := probeKey_found h
  exact Nat.mod_lt _ (by omega)

end Probes

/-! ### Ports -/

/-- A command runs when accepted at a capacity in range, waits when not accepted, and faults only at
a capacity no run has. -/
theorem onCommandPort_cases (s : State) (run : State → State) :
    (s.acceptsCommand = false ∧ onCommandPort s run = .next s)
    ∨ (s.acceptsCommand = true ∧ s.capacityInRange = true ∧ onCommandPort s run = .next (run s))
    ∨ (s.acceptsCommand = true ∧ s.capacityInRange = false
        ∧ onCommandPort s run = .fault .capacityOutOfRange) := by
  unfold onCommandPort
  cases s.acceptsCommand <;> cases s.capacityInRange <;> simp

theorem onCommandPort_runs {s : State} {run : State → State} (h : s.acceptsCommand = true)
    (hc : s.capacityInRange = true) : onCommandPort s run = .next (run s) := by
  simp [onCommandPort, h, hc]

theorem onRegisterPort_idle {s : State} {run : State → Answer} (h : s.busy = false) :
    onRegisterPort s run = run s := by simp [onRegisterPort, h]

theorem onRegisterPort_busy {s : State} {run : State → Answer} (h : s.busy = true) :
    onRegisterPort s run = .next s := by simp [onRegisterPort, h]

/-- A configuration write writes and answers in CONFIG mode, is refused in the others. -/
theorem onConfigWrite_idle {s : State} {run : State → State} (h : s.busy = false) :
    onConfigWrite s run
      = .next (if s.mode = .config then (run s).answer 0 false else s.refuse) := by
  simp [onConfigWrite, onRegisterPort, h]

theorem onRefusedWrite_idle {s : State} (h : s.busy = false) :
    onRefusedWrite s = .next s.refuse := by simp [onRefusedWrite, onRegisterPort, h]

/-! ### Hash -/

/-- The hash written out (40_hash_engine.md R404). -/
theorem hash64_eq (s : State) (k : Word64) :
    s.hash64 k = s.lane k 0 ^^^ s.lane k 1 ^^^ s.lane k 2 ^^^ s.lane k 3 ^^^ s.lane k 4
      ^^^ s.lane k 5 ^^^ s.lane k 6 ^^^ s.lane k 7 := by
  simp [State.hash64, List.range, List.range.loop]

/-- The hash is a function of the tables, their written bits and the free-value count alone. -/
theorem hash64_congr {s t : State} (h : t.ht = s.ht) (hw : t.htw = s.htw)
    (hf : t.freeCtr = s.freeCtr) : t.hash64 = s.hash64 := by
  have ht : t.tabRead = s.tabRead := by
    funext i
    unfold State.tabRead State.htWritten
    rw [h, hw, hf]
  funext k
  simp only [hash64_eq, State.lane, ht]

/-! ### Rebuild -/

/-- The placement loop writes below the new capacity only. -/
theorem placeFrom_read {hash : Word64 → Word64} {old : Memory Slot} {N : Nat} (n j : Nat)
    (fresh : Memory Slot) {i : Nat} (h : N ≤ i) :
    Memory.read .empty (placeFrom hash old N n j fresh).1 i = Memory.read .empty fresh i := by
  induction n generalizing j fresh with
  | zero => rfl
  | succ n ih =>
    unfold placeFrom
    split
    · split
      · rename_i p hp
        rw [ih, Memory.read_write_other]
        have := probeFree_lt hp
        omega
      · rfl
    · exact ih _ _
    · exact ih _ _

/-- The placement loop keeps the canonical form. -/
theorem placeFrom_wf {hash : Word64 → Word64} {old : Memory Slot} {N : Nat} (n j : Nat)
    {fresh : Memory Slot} (h : Memory.wf .empty fresh) :
    Memory.wf .empty (placeFrom hash old N n j fresh).1 := by
  induction n generalizing j fresh with
  | zero => exact h
  | succ n ih =>
    unfold placeFrom
    split
    · split
      · exact ih _ (Memory.wf_write h)
      · exact h
    · exact ih _ h
    · exact ih _ h

/-- The placement loop lists only what was listed and slots below the new capacity. -/
theorem placeFrom_mem {hash : Word64 → Word64} {old : Memory Slot} {N : Nat} (n j : Nat)
    {fresh : Memory Slot} {e : Nat × Slot} (h : e ∈ (placeFrom hash old N n j fresh).1) :
    e ∈ fresh ∨ e.1 < N := by
  induction n generalizing j fresh with
  | zero => exact .inl h
  | succ n ih =>
    unfold placeFrom at h
    split at h
    · split at h
      · rename_i p hp
        rcases ih _ h with h | h
        · rcases Memory.mem_write h with h | ⟨rfl, -⟩
          · exact .inl h
          · exact .inr (probeFree_lt hp)
        · exact .inr h
      · exact .inl h
    · exact ih _ h
    · exact ih _ h

/-- A rebuild commits or raises SHRINK_OVERFLOW; either way only the inactive bank has been written
before (43_sequencer.md R706, R707). -/
theorem rebuild_cases (op : BitVec 2) (key : Word64) (N : Nat) (s : State) :
    ∃ built : Memory Slot,
      built = (placeFrom s.hash64 (s.bank s.active) N s.capacity.toNat 0
        (Memory.clearBelow N (s.bank (1 - s.active)))).1
      ∧ (rebuild op key N s
            = .done { s.setBank (1 - s.active) built with
                active := 1 - s.active, capacity := BitVec.ofNat 32 N, removed := 0 } Events.none
          ∨ rebuild op key N s
            = .raised (raiseFault .shrinkOverflow op key (s.setBank (1 - s.active) built))) := by
  refine ⟨_, rfl, ?_⟩
  unfold rebuild
  cases hb : (placeFrom s.hash64 (s.bank s.active) N s.capacity.toNat 0
    (Memory.clearBelow N (s.bank (1 - s.active)))).2 with
  | true => left; dsimp only; rw [if_pos hb]
  | false => right; dsimp only; rw [if_neg (by rw [hb]; exact Bool.false_ne_true)]

/-- GROW past CAP_MAX raises GROW_OVERFLOW with nothing else changed (43_sequencer.md R703). -/
theorem growTable_overflow {s : State} (h : s.capMax < 2 * s.capacity.toNat) (op : BitVec 2)
    (key : Word64) : growTable op key s = .raised (raiseFault .growOverflow op key s) := by
  simp [growTable, h]

theorem growTable_rebuilds {s : State} (h : 2 * s.capacity.toNat ≤ s.capMax) (op : BitVec 2)
    (key : Word64) : growTable op key s = rebuild op key (2 * s.capacity.toNat) s := by
  simp [growTable, Nat.not_lt.2 h]

/-! ### Compaction -/

/-- The inner loop of compaction never goes back and stays below the capacity. -/
theorem shiftRun_bounds {c size : Nat} (n j : Nat) (m : Memory Slot) :
    j ≤ (shiftRun c size n j m).2 ∧ (j ≤ c → (shiftRun c size n j m).2 ≤ c) := by
  induction n generalizing j m with
  | zero => exact ⟨Nat.le_refl _, id⟩
  | succ n ih =>
    unfold shiftRun
    split
    · split
      · exact ⟨Nat.le_trans (Nat.le_succ j) (ih _ _).1, fun _ => (ih _ _).2 (by omega)⟩
      · exact ⟨Nat.le_refl _, id⟩
      · exact ⟨Nat.le_refl _, id⟩
    · exact ⟨Nat.le_refl _, id⟩

/-- The inner loop of compaction leaves the slots at and above the capacity alone. -/
theorem shiftRun_read {c size : Nat} (n j : Nat) (m : Memory Slot) {i : Nat} (h : c ≤ i) :
    Memory.read .empty (shiftRun c size n j m).1 i = Memory.read .empty m i := by
  induction n generalizing j m with
  | zero => rfl
  | succ n ih =>
    unfold shiftRun
    split
    · split
      · rw [ih, Memory.read_write_other (by omega), Memory.read_write_other (by omega)]
      · rfl
      · rfl
    · rfl

theorem shiftRun_wf {c size : Nat} (n j : Nat) {m : Memory Slot} (h : Memory.wf .empty m) :
    Memory.wf .empty (shiftRun c size n j m).1 := by
  induction n generalizing j m with
  | zero => exact h
  | succ n ih =>
    unfold shiftRun
    split
    · split
      · exact ih _ (Memory.wf_write (Memory.wf_write h))
      · exact h
      · exact h
    · exact h

/-- The inner loop lists only what was listed and slots below the capacity. -/
theorem shiftRun_mem {c size : Nat} (n j : Nat) {m : Memory Slot} {e : Nat × Slot}
    (h : e ∈ (shiftRun c size n j m).1) : e ∈ m ∨ e.1 < c := by
  induction n generalizing j m with
  | zero => exact .inl h
  | succ n ih =>
    unfold shiftRun at h
    split at h
    · split at h
      · rcases ih _ h with h | h
        · rcases Memory.mem_write h with h | ⟨rfl, -⟩
          · rcases Memory.mem_write h with h | ⟨rfl, -⟩
            · exact .inl h
            · right; simp only; omega
          · exact .inr ‹_›
        · exact .inr h
      · exact .inl h
      · exact .inl h
    · exact .inl h

/-- Compaction leaves the slots at and above the capacity alone. -/
theorem compactFrom_read {c : Nat} (n i : Nat) (start : Option Nat) (m : Memory Slot) {k : Nat}
    (h : c ≤ k) :
    Memory.read .empty (compactFrom c n i start m) k = Memory.read .empty m k := by
  induction n generalizing i start m with
  | zero => rfl
  | succ n ih =>
    unfold compactFrom
    split
    · split
      · rw [ih, Memory.read_write_other (by omega)]
      · exact ih _ _ _
      · split
        · exact ih _ _ _
        · rw [ih, shiftRun_read _ _ _ h]
    · rfl

theorem compactFrom_wf {c : Nat} (n i : Nat) (start : Option Nat) {m : Memory Slot}
    (h : Memory.wf .empty m) : Memory.wf .empty (compactFrom c n i start m) := by
  induction n generalizing i start m with
  | zero => exact h
  | succ n ih =>
    unfold compactFrom
    split
    · split
      · exact ih _ _ (Memory.wf_write h)
      · exact ih _ _ h
      · split
        · exact ih _ _ h
        · exact ih _ _ (shiftRun_wf _ _ h)
    · exact h

theorem compactFrom_mem {c : Nat} (n i : Nat) (start : Option Nat) {m : Memory Slot}
    {e : Nat × Slot} (h : e ∈ compactFrom c n i start m) : e ∈ m ∨ e.1 < c := by
  induction n generalizing i start m with
  | zero => exact .inl h
  | succ n ih =>
    unfold compactFrom at h
    split at h
    · split at h
      · rcases ih _ _ h with h | h
        · rcases Memory.mem_write h with h | ⟨rfl, -⟩
          · exact .inl h
          · exact .inr ‹_›
        · exact .inr h
      · exact ih _ _ h
      · split at h
        · exact ih _ _ h
        · rcases ih _ _ h with h | h
          · exact shiftRun_mem _ _ h
          · exact .inr h
    · exact .inl h

/-- With no run open and no Tombstone ahead, compaction changes nothing. -/
theorem compactFrom_noTomb {c : Nat} (n i : Nat) {m : Memory Slot}
    (h : ∀ k < c, Memory.read .empty m k ≠ .tombstone) : compactFrom c n i none m = m := by
  induction n generalizing i with
  | zero => rfl
  | succ n ih =>
    unfold compactFrom
    split
    · rename_i hi
      split
      · exact absurd ‹_› (h i hi)
      · exact ih _
      · exact ih _
    · rfl

/-- Compaction touches the active bank and REMOVED only. -/
theorem compactTable_eq (s : State) :
    compactTable s
      = { s.setBank s.active (compactBank s.capacity.toNat (s.bank s.active)) with removed := 0 } :=
  rfl

/-! ### After a slot write -/

/-- `post_insert` does nothing, grows, or raises (43_sequencer.md R701). -/
theorem postInsert_cases (key : Word64) (s : State) :
    (s.growCond = false ∧ postInsert key s = .done s Events.none)
    ∨ (s.growCond = true ∧ ∃ t ev, growTable opInsert key s = .done t ev
        ∧ postInsert key s = .done t { Events.none with grow := true })
    ∨ (s.growCond = true ∧ ∃ t, growTable opInsert key s = .raised t
        ∧ postInsert key s = .raised t) := by
  unfold postInsert
  cases s.growCond with
  | false => exact .inl ⟨rfl, rfl⟩
  | true =>
    cases h : growTable opInsert key s with
    | done t ev => exact .inr (.inl ⟨rfl, t, ev, rfl, rfl⟩)
    | raised t => exact .inr (.inr ⟨rfl, t, rfl, rfl⟩)

/-- The shrink check does nothing, shrinks, or raises (43_sequencer.md R702, R704). -/
theorem shrinkIfLow_cases (key : Word64) (ev : Events) (s : State) :
    ((s.shrinkCond && decide (1 < s.capacity.toNat)) = false ∧ shrinkIfLow key ev s = .done s ev)
    ∨ (s.shrinkCond = true ∧ 1 < s.capacity.toNat
        ∧ ∃ t e, shrinkTable opRemove key s = .done t e
          ∧ shrinkIfLow key ev s = .done t { ev with shrink := true })
    ∨ (s.shrinkCond = true ∧ 1 < s.capacity.toNat
        ∧ ∃ t, shrinkTable opRemove key s = .raised t ∧ shrinkIfLow key ev s = .raised t) := by
  unfold shrinkIfLow
  cases hc : (s.shrinkCond && decide (1 < s.capacity.toNat)) with
  | false => exact .inl ⟨rfl, rfl⟩
  | true =>
    rw [Bool.and_eq_true, decide_eq_true_eq] at hc
    cases h : shrinkTable opRemove key s with
    | done t e => exact .inr (.inl ⟨hc.1, hc.2, t, e, rfl, rfl⟩)
    | raised t => exact .inr (.inr ⟨hc.1, hc.2, t, rfl, rfl⟩)

/-- `post_remove` compacts first when clean_cond holds, then checks for a shrink
(43_sequencer.md R702). -/
theorem postRemove_cases (key : Word64) (s : State) :
    (s.cleanCond = false ∧ postRemove key s = shrinkIfLow key Events.none s)
    ∨ (s.cleanCond = true
        ∧ postRemove key s
          = shrinkIfLow key { Events.none with compact := true } (compactTable s)) := by
  unfold postRemove
  cases s.cleanCond <;> simp

end Sys2Proof.Machine
end

