-- ==== Sys2Proof/Laws/PerInstr.lean ====
section
/-! SUPPORT. The families of statements made once for each constructor of Instr. -/

/-! ### EncodeDecode: decoding the word of a well-formed operation gives the operation back -/

namespace Sys2Proof.Laws.EncodeDecode

open Sys2Proof

/-- A well-formed operation that has a word is what its word decodes to. -/
def Statement (i : Instr) : Prop :=
  i.wellFormed = true → ∀ w, encode i = some w → decode w = i

/-- The form every lemma of a CMD row has. -/
theorem of_cmd {i : Instr} {op : BitVec 2} {k : Word64}
    (he : encode i = some (.cmd (cmdWord op k))) (hd : decodeCmd (cmdWord op k) = i) :
    Statement i := by
  intro _ w hw
  rw [he, Option.some.injEq] at hw
  subst hw
  exact hd

/-- The form every lemma of a REG row has. -/
theorem of_reg {i : Instr} {we : Bool} {a : BitVec 8} {d : Word64}
    (he : encode i = some (.reg (regWord we a d)))
    (hd : i.wellFormed = true → (if we then decodeWrite a d else .rd a d) = i) : Statement i := by
  intro hwf w hw
  rw [he, Option.some.injEq] at hw
  subst hw
  exact (decodeReg_regWord we a d).trans (hd hwf)

/-- The form every lemma of an internal row has: there is no word. -/
theorem of_none {i : Instr} (he : encode i = none) : Statement i := by
  intro _ w hw
  rw [he] at hw
  cases hw

theorem insert (key : Word64) : Statement (.insert key) :=
  of_cmd rfl (decodeCmd_cmdWord _ key)

theorem lookup (key : Word64) : Statement (.lookup key) :=
  of_cmd rfl (decodeCmd_cmdWord _ key)

theorem remove (key : Word64) : Statement (.remove key) :=
  of_cmd rfl (decodeCmd_cmdWord _ key)

theorem cmdReserved (key : Word64) : Statement (.cmdReserved key) :=
  of_cmd rfl (decodeCmd_cmdWord _ key)

theorem rd (addr : BitVec 8) (wdata : Word64) : Statement (.rd addr wdata) :=
  of_reg rfl fun _ => rfl

theorem wrInitCapacity (wdata : Word64) : Statement (.wrInitCapacity wdata) := of_reg rfl fun _ => rfl

theorem wrGrowThr (wdata : Word64) : Statement (.wrGrowThr wdata) := of_reg rfl fun _ => rfl

theorem wrShrinkThr (wdata : Word64) : Statement (.wrShrinkThr wdata) := of_reg rfl fun _ => rfl

theorem wrHtIndex (wdata : Word64) : Statement (.wrHtIndex wdata) := of_reg rfl fun _ => rfl

theorem wrHtData (wdata : Word64) : Statement (.wrHtData wdata) := of_reg rfl fun _ => rfl

theorem wrCtrl (wdata : Word64) : Statement (.wrCtrl wdata) := of_reg rfl fun hwf => by
  have h : decodeWrite 0 wdata = decodeCtrl wdata := rfl
  have hwf : isCtrlAction wdata = false := by simpa [Instr.wellFormed] using hwf
  unfold isCtrlAction at hwf
  simp only [Bool.or_eq_false_iff, beq_eq_false_iff_ne, ne_eq] at hwf
  rw [if_pos rfl, h, decodeCtrl, if_neg hwf.1.1, if_neg hwf.1.2, if_neg hwf.2]

theorem start : Statement .start := of_reg rfl fun _ => by decide

theorem softReset : Statement .softReset := of_reg rfl fun _ => by decide

theorem compactNow : Statement .compactNow := of_reg rfl fun _ => by decide

theorem wrSlotIndex (wdata : Word64) : Statement (.wrSlotIndex wdata) := of_reg rfl fun _ => rfl

theorem wrRefused01 (wdata : Word64) : Statement (.wrRefused01 wdata) := of_reg rfl fun _ => rfl

theorem wrRefused02 (low : BitVec 1) (wdata : Word64) : Statement (.wrRefused02 low wdata) :=
  of_reg rfl fun _ => by
    rcases Nat.lt_or_ge low.toNat 1 with h | h
    · obtain rfl : low = 0 := BitVec.eq_of_toNat_eq (by simpa using h)
      rfl
    · obtain rfl : low = 1 := BitVec.eq_of_toNat_eq (by have := low.isLt; simp; omega)
      rfl

theorem wrRefused07 (wdata : Word64) : Statement (.wrRefused07 wdata) := of_reg rfl fun _ => rfl

theorem wrRefused08 (low : BitVec 1) (wdata : Word64) : Statement (.wrRefused08 low wdata) :=
  of_reg rfl fun _ => by
    rcases Nat.lt_or_ge low.toNat 1 with h | h
    · obtain rfl : low = 0 := BitVec.eq_of_toNat_eq (by simpa using h)
      rfl
    · obtain rfl : low = 1 := BitVec.eq_of_toNat_eq (by have := low.isLt; simp; omega)
      rfl

theorem wrRefused0A (wdata : Word64) : Statement (.wrRefused0A wdata) := of_reg rfl fun _ => rfl

theorem wrRefused0E (low : BitVec 1) (wdata : Word64) : Statement (.wrRefused0E low wdata) :=
  of_reg rfl fun _ => by
    rcases Nat.lt_or_ge low.toNat 1 with h | h
    · obtain rfl : low = 0 := BitVec.eq_of_toNat_eq (by simpa using h)
      rfl
    · obtain rfl : low = 1 := BitVec.eq_of_toNat_eq (by have := low.isLt; simp; omega)
      rfl

theorem wrRefused10 (low : BitVec 4) (wdata : Word64) : Statement (.wrRefused10 low wdata) :=
  of_reg rfl fun _ => by
    have hn : ((0b0001 : BitVec 4) ++ low).toNat = 0x10 + low.toNat := by
      rw [BitVec.toNat_append, ← Nat.shiftLeft_add_eq_or_of_lt low.isLt]
      rfl
    have hl := low.isLt
    rw [if_pos rfl, decodeWrite_high (by rw [hn]; omega), if_pos (by rw [hn]; omega)]
    congr 1
    exact extract_low _ low

theorem wrRefused20 (low : BitVec 5) (wdata : Word64) : Statement (.wrRefused20 low wdata) :=
  of_reg rfl fun _ => by
    have hn : ((0b001 : BitVec 3) ++ low).toNat = 0x20 + low.toNat := by
      rw [BitVec.toNat_append, ← Nat.shiftLeft_add_eq_or_of_lt low.isLt]
      rfl
    have hl := low.isLt
    rw [if_pos rfl, decodeWrite_high (by rw [hn]; omega), if_neg (by rw [hn]; omega), if_pos (by rw [hn]; omega)]
    congr 1
    exact extract_low _ low

theorem wrRefused40 (low : BitVec 6) (wdata : Word64) : Statement (.wrRefused40 low wdata) :=
  of_reg rfl fun _ => by
    have hn : ((0b01 : BitVec 2) ++ low).toNat = 0x40 + low.toNat := by
      rw [BitVec.toNat_append, ← Nat.shiftLeft_add_eq_or_of_lt low.isLt]
      rfl
    have hl := low.isLt
    rw [if_pos rfl, decodeWrite_high (by rw [hn]; omega), if_neg (by rw [hn]; omega), if_neg (by rw [hn]; omega), if_pos (by rw [hn]; omega)]
    congr 1
    exact extract_low _ low

theorem wrRefused80 (low : BitVec 7) (wdata : Word64) : Statement (.wrRefused80 low wdata) :=
  of_reg rfl fun _ => by
    have hn : ((0b1 : BitVec 1) ++ low).toNat = 0x80 + low.toNat := by
      rw [BitVec.toNat_append, ← Nat.shiftLeft_add_eq_or_of_lt low.isLt]
      rfl
    have hl := low.isLt
    rw [if_pos rfl, decodeWrite_high (by rw [hn]; omega), if_neg (by rw [hn]; omega), if_neg (by rw [hn]; omega), if_neg (by rw [hn]; omega)]
    congr 1
    exact extract_low _ low

theorem hash (key : Word64) : Statement (.hash key) := of_none rfl

theorem probeFree (bank : BitVec 1) (home cap : Word32) : Statement (.probeFree bank home cap) := of_none rfl

theorem probeKey (home cap : Word32) (key : Word64) : Statement (.probeKey home cap key) := of_none rfl

theorem grow : Statement .grow := of_none rfl

theorem shrink : Statement .shrink := of_none rfl

theorem rebuild (newCap : Word32) : Statement (.rebuild newCap) := of_none rfl

theorem compact : Statement .compact := of_none rfl

end Sys2Proof.Laws.EncodeDecode
end

