-- ==== Sys2Proof/Laws/Step.lean ====
section
/-! SUPPORT. What one step does, by what stands at the ports: each case of `State.edge` once. -/

namespace Sys2Proof.Machine

variable {s : State}

/-- The FSM is idle exactly when the engine is not busy. -/
theorem busy_eq_false_iff : s.busy = false ↔ s.dp.fsm = .idle := by simp [State.busy]

/-- A command is accepted exactly in RUN mode, idle, with no response pending. -/
theorem acceptsCommand_iff :
    s.acceptsCommand = true ↔ s.mode = .run ∧ s.dp.fsm = .idle ∧ s.rspPending = false := by
  simp [State.acceptsCommand, State.busy, and_assoc]

theorem step_reset (h : s.pins.rst = true) : step s = .next (hardwareReset s.advance) := by
  simp [step, State.edge, h]

theorem step_micro (h : s.pins.rst = false) (hb : s.busy = true) : step s = microEdge s := by
  simp [step, State.edge, h, hb]

/-- A busy edge in a state the micro-steps are defined for: the response port, the passing of the edge,
one micro-step. -/
theorem microEdge_runs (h : s.dp.fsm = .initClear ∨ s.capacityInRange = true) :
    microEdge s = .next (microStep (takeResponse s).advance) := by
  simp [microEdge, h]

/-- A register transaction alone. -/
theorem step_register {w : RegWord} (h : s.pins.rst = false) (hb : s.busy = false)
    (hr : s.pins.reg = some w) (ht : s.transfersResponse = false) :
    step s = exec (decodeReg w) s.advance := by
  simp [step, State.edge, h, hb, hr, ht]

/-- A register transaction and a hand-over at one edge, in either order. -/
theorem step_register_handOver {w : RegWord} (h : s.pins.rst = false) (hb : s.busy = false)
    (hr : s.pins.reg = some w) (ht : s.transfersResponse = true) :
    step s = exec (decodeReg w) (handOver s.advance.nextFree)
      ∨ step s = andThen (exec (decodeReg w) s.advance.nextFree) handOver := by
  cases hc : Config.handOverFirst s.freeCtr <;> simp [step, State.edge, h, hb, hr, ht, hc]

theorem step_handOver (h : s.pins.rst = false) (hb : s.busy = false) (hr : s.pins.reg = none)
    (ht : s.transfersResponse = true) : step s = .next (handOver s.advance) := by
  simp [step, State.edge, h, hb, hr, ht]

theorem step_command {w : CmdWord} (h : s.pins.rst = false) (hb : s.busy = false)
    (hr : s.pins.reg = none) (ht : s.transfersResponse = false) (hc : s.pins.cmd = some w) :
    step s = exec (decodeCmd w) s.advance := by
  simp [step, State.edge, h, hb, hr, ht, hc]

theorem step_nothing (h : s.pins.rst = false) (hb : s.busy = false) (hr : s.pins.reg = none)
    (ht : s.transfersResponse = false) (hc : s.pins.cmd = none) : step s = .next s.advance := by
  simp [step, State.edge, h, hb, hr, ht, hc]

/-- What the command port decodes is one of the four command rows. -/
theorem decodeCmd_cases (w : CmdWord) :
    ∃ k, decodeCmd w = .insert k ∨ decodeCmd w = .lookup k ∨ decodeCmd w = .remove k
      ∨ decodeCmd w = .cmdReserved k := by
  refine ⟨w.extractLsb' 0 64, ?_⟩
  unfold decodeCmd
  split <;> simp

end Sys2Proof.Machine
end

