-- ==== Sys2Proof/Machine/Assembler.lean ====
section
/-! DEFINITION. The assembly notation (30_encoding.md R318) as typed lines, and the
pseudo-instructions (R319) as the lines they expand to. A line becomes what the host drives at one
edge; a host that finds a command not accepted drives it again. -/

namespace Sys2Proof.Machine

/-- One line: one host action (30_encoding.md R318). -/
inductive AsmLine where
  /-- `INSERT <key>` -/
  | insert (key : Word64)
  /-- `LOOKUP <key>` -/
  | lookup (key : Word64)
  /-- `REMOVE <key>` -/
  | remove (key : Word64)
  /-- `CMD3 <key>` -/
  | cmd3 (key : Word64)
  /-- `TAKE` -/
  | take
  /-- `RD <reg>` -/
  | rd (addr : BitVec 8)
  /-- `WR <reg>, <value>` -/
  | wr (addr : BitVec 8) (value : Word64)
  deriving DecidableEq, Repr

/-- What the host drives for a line. -/
def AsmLine.assemble : AsmLine → PortIn
  | .insert k => PortIn.ofWord (.cmd (cmdWord opInsert k))
  | .lookup k => PortIn.ofWord (.cmd (cmdWord opLookup k))
  | .remove k => PortIn.ofWord (.cmd (cmdWord opRemove k))
  | .cmd3 k => PortIn.ofWord (.cmd (cmdWord opReserved k))
  | .take => { PortIn.low with rspReady := true }
  | .rd a => PortIn.ofWord (.reg (regWord false a 0))
  | .wr a d => PortIn.ofWord (.reg (regWord true a d))

/-- A listing as the host's samples. -/
def assemble (lines : List AsmLine) : List PortIn := lines.map AsmLine.assemble

/-- `START`. -/
def asmStart : List AsmLine := [.wr 0x00 0x1]

/-- `SOFT_RESET`. -/
def asmSoftReset : List AsmLine := [.wr 0x00 0x2]

/-- `COMPACT_NOW`. -/
def asmCompactNow : List AsmLine := [.wr 0x00 0x4]

/-- `CONFIG <cap>, <grow>, <shrink>`. -/
def asmConfig (cap grow shrink : Word64) : List AsmLine :=
  [.wr 0x04 cap, .wr 0x05 grow, .wr 0x06 shrink]

/-- `LOAD_TABLES <f>`: HT_INDEX to 0, then the 2048 values in order. -/
def asmLoadTables (f : Nat → Nat → Word64) : List AsmLine :=
  .wr 0x0B 0 :: (List.range 2048).map fun n => .wr 0x0C (f (n / 256) (n % 256))

/-- `LOAD_TABLE <t>, <d0>, ..., <d255>`: HT_INDEX to t*256, then the values in order. -/
def asmLoadTable (t : Nat) (values : List Word64) : List AsmLine :=
  .wr 0x0B (BitVec.ofNat 64 (t * 256)) :: values.map fun d => .wr 0x0C d

/-- `PEEK <i>`. -/
def asmPeek (i : Word64) : List AsmLine := [.wr 0x0D i, .rd 0x0E, .rd 0x0F]

/-- `INSERT! <key>`. -/
def asmInsertTake (k : Word64) : List AsmLine := [.insert k, .take]

/-- `LOOKUP! <key>`. -/
def asmLookupTake (k : Word64) : List AsmLine := [.lookup k, .take]

/-- `REMOVE! <key>`. -/
def asmRemoveTake (k : Word64) : List AsmLine := [.remove k, .take]

end Sys2Proof.Machine
end

