-- ==== Sys2Proof/Tests/Slice0.lean ====
section
/-! SUPPORT. The model's own tests: expected values are those spec/95_test_vectors.md writes out, or
follow from the rule a test names. Below them, for each obligation with hypotheses, a state and operands
that meet them. -/

namespace Sys2Proof.Tests

-- One theorem after another: checked side by side they ask for more threads than a small machine has.
set_option Elab.async false

open Sys2Proof Sys2Proof.Machine

/-! ### Helpers -/

/-- The answer is a next state with `p`. -/
def nextIs (r : Answer) (p : State → Bool) : Bool :=
  match r with
  | .next t => p t
  | .fault _ => false
  | .refused _ => false

/-- A bank that holds the listed slots from index 0 on. -/
def bankOf (slots : List Slot) : Memory Slot :=
  ((List.range slots.length).zip slots).filter fun e => !e.2.isEmpty

/-- The entries of the `identity` tables (95_test_vectors.md section 0) that keys below 48 select, the
zeros not listed. -/
def identityLane : Memory Word64 := (List.range 47).map fun v => (1793 + v, BitVec.ofNat 64 (v + 1))

/-- RUN mode, CAP_MAX = 64, P = 0, default thresholds, complete tables that hash a key below 48 to
itself, and the listed slots as the table. -/
def running (slots : List Slot) : State :=
  { State.reset with
    mode := .run, initCapacity := BitVec.ofNat 32 slots.length,
    capacity := BitVec.ofNat 32 slots.length,
    filled := BitVec.ofNat 32 (slots.countP Slot.isOccupied),
    removed := BitVec.ofNat 32 (slots.countP Slot.isTomb),
    ht := identityLane, htw := BitVec.allOnes 2048, bank0 := bankOf slots,
    capMax := 64, lookupEmptyStop := false }

/-- CONFIG mode with complete tables and INIT_CAPACITY = 4. -/
def configured : State :=
  { State.reset with
    initCapacity := 4, ht := identityLane, htw := BitVec.allOnes 2048, capMax := 64,
    lookupEmptyStop := false }

/-- CONFIG mode as reset leaves it, CAP_MAX = 64, P = 1 (the build of V-RG1). -/
def fresh : State := { State.reset with capMax := 64, lookupEmptyStop := true }

/-- FAULT mode after V-C6. -/
def faulted : State :=
  { running [.occupied 7] with mode := .fault, faultCause := .probeFull, faultKey := 8 }

/-- A build that stops key probes at an Empty slot. -/
def stopping (s : State) : State := { s with lookupEmptyStop := true }

/-- The slots 0..n-1 of the table. -/
def slotsOf (s : State) (n : Nat) : List Slot := (List.range n).map s.slot

/-- The keys as Occupied slots. -/
abbrev O (k : Word64) : Slot := .occupied k
/-- An Empty slot. -/
abbrev E : Slot := .empty
/-- A Tombstone. -/
abbrev T : Slot := .tombstone

/-! ### WellFormed: each check refuses an ill-formed term -/

theorem test_wf_ctrl_start : (Instr.wrCtrl 1).wellFormed = false := by decide
theorem test_wf_ctrl_reset : (Instr.wrCtrl 2).wellFormed = false := by decide
theorem test_wf_ctrl_compact : (Instr.wrCtrl 4).wellFormed = false := by decide
theorem test_wf_probeFree_home : (Instr.probeFree 0 4 4).wellFormed = false := by decide
theorem test_wf_probeFree_zero : (Instr.probeFree 0 0 0).wellFormed = false := by decide
theorem test_wf_probeKey_home : (Instr.probeKey 9 8 0).wellFormed = false := by decide
theorem test_wf_probeKey_large : (Instr.probeKey 0 0x80000001 0).wellFormed = false := by decide
theorem test_wf_rebuild_zero : (Instr.rebuild 0).wellFormed = false := by decide
theorem test_wf_rebuild_large : (Instr.rebuild 0x80000001).wellFormed = false := by decide
theorem test_wf_ok : ((Instr.wrCtrl 3).wellFormed && (Instr.probeFree 1 3 4).wellFormed
    && (Instr.probeKey 0 1 0).wellFormed && (Instr.rebuild 0x80000000).wellFormed) = true := by decide

/-! ### Decode: words written out from 30_encoding.md R303, R308, most of them by 95_test_vectors.md -/

theorem test_decode_insert : decode (.cmd 0x0000000000000000A) = .insert 10 := by decide +kernel
theorem test_decode_lookup : decode (.cmd 0x1000000000000000A) = .lookup 10 := by decide +kernel
theorem test_decode_remove : decode (.cmd 0x2000000000000000A) = .remove 10 := by decide +kernel
theorem test_decode_cmd3 : decode (.cmd 0x30000000000000005) = .cmdReserved 5 := by decide +kernel
theorem test_decode_insert_neg : decode (.cmd 0x0FFFFFFFFFFFFFFFF) = .insert (bits64 (-1)) := by
  decide +kernel
theorem test_decode_rd : decode (.reg 0x0010000000000000000) = .rd 1 0 := by decide +kernel
theorem test_decode_rd_high : decode (.reg 0x0110000000000000000) = .rd 0x11 0 := by decide +kernel
theorem test_decode_initCapacity : decode (.reg 0x1040000000000000004) = .wrInitCapacity 4 := by
  decide +kernel
theorem test_decode_growThr : decode (.reg 0x1050000000000030000) = .wrGrowThr 0x30000 := by
  decide +kernel
theorem test_decode_shrinkThr : decode (.reg 0x106000000000001FFFF) = .wrShrinkThr 0x1FFFF := by
  decide +kernel
theorem test_decode_htIndex : decode (.reg 0x10B00000000000001FF) = .wrHtIndex 0x1FF := by
  decide +kernel
theorem test_decode_htData : decode (.reg 0x10C00000000000000AB) = .wrHtData 0xAB := by decide +kernel
theorem test_decode_ctrl : decode (.reg 0x1000000000000000008) = .wrCtrl 8 := by decide +kernel
theorem test_decode_ctrl_zero : decode (.reg 0x1000000000000000000) = .wrCtrl 0 := by decide +kernel
theorem test_decode_start : decode (.reg 0x1000000000000000001) = .start := by decide +kernel
theorem test_decode_softReset : decode (.reg 0x1000000000000000002) = .softReset := by decide +kernel
theorem test_decode_compactNow : decode (.reg 0x1000000000000000004) = .compactNow := by
  decide +kernel
theorem test_decode_slotIndex : decode (.reg 0x10D0000000000000004) = .wrSlotIndex 4 := by
  decide +kernel
theorem test_decode_refused01 : decode (.reg 0x1010000000000000000) = .wrRefused01 0 := by
  decide +kernel
theorem test_decode_refused02 : decode (.reg 0x1030000000000000000) = .wrRefused02 1 0 := by
  decide +kernel
theorem test_decode_refused07 : decode (.reg 0x1070000000000000001) = .wrRefused07 1 := by
  decide +kernel
theorem test_decode_refused08 : decode (.reg 0x1080000000000000008) = .wrRefused08 0 8 := by
  decide +kernel
theorem test_decode_refused0A : decode (.reg 0x10A0000000000000000) = .wrRefused0A 0 := by
  decide +kernel
theorem test_decode_refused0E : decode (.reg 0x10E0000000000000000) = .wrRefused0E 0 0 := by
  decide +kernel
theorem test_decode_refused10 : decode (.reg 0x1110000000000000000) = .wrRefused10 1 0 := by
  decide +kernel
theorem test_decode_refused20 : decode (.reg 0x13F0000000000000000) = .wrRefused20 31 0 := by
  decide +kernel
theorem test_decode_refused40 : decode (.reg 0x1400000000000000000) = .wrRefused40 0 0 := by
  decide +kernel
theorem test_decode_refused80 : decode (.reg 0x1FF0000000000000000) = .wrRefused80 127 0 := by
  decide +kernel

/-- The numbered form: a command fills 9 bytes, a register request 10; no other length is a word. -/
theorem test_decode_numbered :
    decodeTableWord 72 0x2000000000000000A = some (.remove 10)
      ∧ decodeTableWord 80 0x1000000000000000001 = some .start
      ∧ decodeTableWord 64 0 = none ∧ decodeTableWord 72 (2 ^ 66) = none
      ∧ decodeTableWord 80 (2 ^ 73) = none := by decide +kernel

/-- An internal operation has no word (30_encoding.md R315). -/
theorem test_encode_internal :
    encode (.hash 1) = none ∧ encode .grow = none ∧ encode (.rebuild 2) = none := by decide

/-- `START`, `PEEK`, `TAKE` and `LOAD_TABLE` lines (30_encoding.md R318, R319). -/
theorem test_assemble :
    assemble (asmStart ++ asmPeek 4 ++ [.take])
      = [PortIn.ofWord (.reg 0x1000000000000000001), PortIn.ofWord (.reg 0x10D0000000000000004),
         PortIn.ofWord (.reg 0x00E0000000000000000), PortIn.ofWord (.reg 0x00F0000000000000000),
         { PortIn.low with rspReady := true }]
      ∧ (assemble (asmLoadTable 1 [7])) =
        [PortIn.ofWord (.reg 0x10B0000000000000100), PortIn.ofWord (.reg 0x10C0000000000000007)] := by
  decide +kernel

/-! ### HASH: V-H2 (tvb tables) -/

/-- The eight entries of `tvb` that key 0x0102030405060708 selects. -/
def tvb : State :=
  { running [E] with
    ht := [(0x001, 0xA4), (0x102, 0xA700), (0x203, 0xA60000), (0x304, 0xA1000000),
           (0x405, 0xA000000000), (0x506, 0xA30000000000), (0x607, 0xA2000000000000),
           (0x708, 0xAD00000000000000)] }

theorem test_hash_tvb :
    nextIs (exec (.hash 0x0102030405060708) tvb) (fun t => t.dp.hash == 0xADA2A3A0A1A6A7A4) = true := by
  decide +kernel

/-- V-H1. -/
theorem test_hash_identity : (running [E]).hash64 10 = 10 := by decide +kernel

/-! ### PROBE_FREE: V-P1, V-P4. PROBE_KEY: V-P3, V-P6 -/

theorem test_probeFree_found :
    nextIs (exec (.probeFree 0 2 4) (running [O 20, E, O 10, E]))
      (fun t => t.dp.found == some 3 && t.dp.off == 1) = true := by decide +kernel

theorem test_probeFree_none :
    nextIs (exec (.probeFree 0 1 4) (running [O 1, T, O 2, T])) (fun t => t.dp.found == none) = true := by
  decide +kernel

theorem test_probeKey_tombstone_then_empty :
    (nextIs (exec (.probeKey 2 8 99) (running [O 1, O 2, T, E, O 5, O 6, O 7, O 8]))
        (fun t => t.dp.found == none && t.dp.off == 8)
      && nextIs (exec (.probeKey 2 8 99) (stopping (running [O 1, O 2, T, E, O 5, O 6, O 7, O 8])))
        (fun t => t.dp.found == none && t.dp.off == 1)) = true := by decide +kernel

theorem test_probeKey_wraps :
    nextIs (exec (.probeKey 3 8 11) (running [O 0, O 11, E, E, O 4, E, E, E]))
      (fun t => t.dp.found == some 1 && t.dp.off == 6) = true := by decide +kernel

/-! ### Commands -/

/-- V-C1 row 2: the duplicate wraps to slot 0. -/
theorem test_insert_duplicate_wraps :
    nextIs (exec (.insert 3) (running [E, E, E, O 3]))
      (fun t => slotsOf t 4 == [O 3, E, E, O 3] && t.filled == 2 && t.rsp.pos == 0 && t.rsp.home == 3
        && t.rsp.pack == 0x0000000000000003000000000000000300000004000000030000000000) = true := by
  decide +kernel

/-- V-G1: the fourth INSERT grows 4 to 8. -/
theorem test_insert_grows :
    nextIs (exec (.insert 40) (running [O 20, E, O 10, O 30]))
      (fun t => slotsOf t 8 == [O 40, E, O 10, E, O 20, E, O 30, E] && t.capacity == 8
        && t.rsp.ev.grow && t.rsp.pos == 1 && t.rsp.capAfter == 8) = true := by decide +kernel

/-- V-C3 and LOOKUP 20 of 42_commands.md R602. -/
theorem test_lookup_packed :
    (nextIs (exec (.lookup 35) (running [E, E, E, O 3, E, E, E, E]))
        (fun t => t.rsp.pack == 0x000000000000002300000000000000230000000800000003FFFFFFFF05)
      && nextIs (exec (.lookup 20) (running [E, E, E, E, O 20, E, E, E]))
        (fun t => t.rsp.status == .ok && t.rsp.pos == 4 && t.rsp.hash == 20)) = true := by
  decide +kernel

/-- Program T2 with P = 1: key 8 after the compaction is not reached. -/
theorem test_lookup_stops_at_empty :
    nextIs (exec (.lookup 8) (stopping (running [O 0, O 3, E, E, O 8, E, E, E])))
      (fun t => t.rsp.status == .notFound && t.rsp.home == 0) = true := by decide +kernel

/-- V-G12: the third REMOVE compacts, then shrinks. -/
theorem test_remove_cascade :
    nextIs (exec (.remove 2) (running [T, T, O 2, O 3, E, E, E, E]))
      (fun t => slotsOf t 4 == [E, E, E, O 3] && t.capacity == 4 && t.filled == 1 && t.removed == 0
        && t.rsp.lowByte == 0x32) = true := by decide +kernel

/-- V-G9: SHRINK_OVERFLOW keeps the Tombstone and the old table. -/
theorem test_remove_shrink_overflow :
    nextIs (exec (.remove 0)
        { running [O 0, O 1, O 2, O 3, O 4, O 5, E, E] with shrinkThr := 65535 })
      (fun t => t.mode == .fault && t.faultInfoWord == 0x23 && t.faultKey == 0 && t.filled == 5
        && t.removed == 1 && slotsOf t 8 == [T, O 1, O 2, O 3, O 4, O 5, E, E]) = true := by
  decide +kernel

/-- V-C7. -/
theorem test_cmdReserved :
    nextIs (exec (.cmdReserved 5) (running [E, E, E, E, E, E, E, E]))
      (fun t => t.rsp.pack == 0x000000000000000500000000000000000000000800000000FFFFFFFF0B) = true := by
  decide +kernel

/-! ### GROW, SHRINK, REBUILD, COMPACT -/

/-- V-G8 (all home 1) and V-G10. -/
theorem test_grow :
    (nextIs (exec .grow (running [O 13, O 1, O 5, O 9]))
        (fun t => slotsOf t 8 == [E, O 1, O 9, E, E, O 13, O 5, E])
      && nextIs (exec .grow { running [O 0, O 1, O 2, O 3] with capMax := 4 })
        (fun t => t.mode == .fault && t.faultCause == .growOverflow)) = true := by decide +kernel

/-- V-G2: 9 halves down to 4. -/
theorem test_shrink :
    nextIs (exec .shrink (running [E, O 1, O 2, T, E, E, E, E, E]))
      (fun t => slotsOf t 4 == [E, O 1, O 2, E] && t.capacity == 4 && t.removed == 0) = true := by
  decide +kernel

/-- The example of 43_sequencer.md R707. -/
theorem test_rebuild :
    nextIs (exec (.rebuild 8) (running [O 20, O 40, O 10, O 30]))
      (fun t => slotsOf t 8 == [O 40, E, O 10, E, O 20, E, O 30, E] && t.active == 1
        && t.filled == 4) = true := by decide +kernel

/-- V-G4, V-G5. -/
theorem test_compact_stops_at_empty :
    (nextIs (exec .compact (running [O 11, T, O 22, E, O 33]))
        (fun t => slotsOf t 5 == [O 11, O 22, E, E, O 33] && t.removed == 0)
      && nextIs (exec .compact (running [O 11, T, E, O 22, O 33, T]))
        (fun t => slotsOf t 6 == [O 11, O 22, O 33, E, E, E])) = true := by decide +kernel

/-- V-G13, V-G7. -/
theorem test_compact_runs :
    (nextIs (exec .compact (running [E, O 11, T, E, T, O 22, E, O 33]))
        (fun t => slotsOf t 8 == [E, O 11, O 22, E, E, E, E, O 33])
      && nextIs (exec .compact (running [T, O 11, O 22, T, T, O 33]))
        (fun t => slotsOf t 6 == [O 11, O 22, E, O 33, E, E])) = true := by decide +kernel

/-! ### Register operations -/

/-- V-RG1.7, V-RG1.2 and V-RG1.3. -/
theorem test_rd_constants :
    (nextIs (exec (.rd 0x10 0) fresh) (fun t => t.reply == some ⟨0x100000040, false⟩)
      && nextIs (exec (.rd 0x07 0) fresh) (fun t => t.reply == some ⟨0x4000, false⟩)
      && nextIs (exec (.rd 0x11 0) fresh) (fun t => t.reply == some ⟨0, true⟩)) = true := by
  decide +kernel

/-- STATUS = 0xD (T7.8), FAULT_INFO and STATUS after V-C6. -/
theorem test_rd_status :
    (nextIs (exec (.rd 0x01 0) { running [E] with rspPending := true })
        (fun t => t.reply == some ⟨0xD, false⟩)
      && nextIs (exec (.rd 0x01 0) faulted) (fun t => t.reply == some ⟨6, false⟩)
      && nextIs (exec (.rd 0x02 0) faulted) (fun t => t.reply == some ⟨1, false⟩)) = true := by
  decide +kernel

/-- V-RG2.3, V-RG2.8; refused in RUN. -/
theorem test_wrInitCapacity :
    (nextIs (exec (.wrInitCapacity 0x1FFFFFFFF) fresh) (fun t => t.initCapacity == 0xFFFFFFFF)
      && nextIs (exec (.wrInitCapacity 8) (running [E])) (fun t =>
        t.initCapacity == 1 && t.reply == some ⟨0, true⟩)) = true := by decide +kernel

theorem test_wrGrowThr :
    nextIs (exec (.wrGrowThr 0x30000) fresh) (fun t => t.growThr == 65536) = true := by decide +kernel

theorem test_wrShrinkThr :
    nextIs (exec (.wrShrinkThr 0x1FFFF) fresh) (fun t => t.shrinkThr == 0x1FFFF) = true := by
  decide +kernel

/-- V-RG3.10. -/
theorem test_wrHtIndex :
    nextIs (exec (.wrHtIndex 0xFFFF) fresh) (fun t => t.htIndex == 0x7FF) = true := by decide +kernel

/-- V-RG3.2, V-RG3.5 and V-RG3.8. -/
theorem test_wrHtData :
    (nextIs (exec (.wrHtData 0xAB) { fresh with htIndex := 0x1FF })
        (fun t => t.htIndex == 0x200 && t.htWritten 0x1FF && t.tabRead 0x1FF == 0xAB)
      && nextIs (exec (.wrHtData 1) { fresh with htIndex := 0x7FF }) (fun t => t.htIndex == 0)) = true := by
  decide +kernel

/-- V-RG4.2, V-RG4.3. -/
theorem test_wrCtrl :
    (nextIs (exec (.wrCtrl 3) fresh) (fun t => t.reply == some ⟨0, true⟩)
      && nextIs (exec (.wrCtrl 0) fresh) (fun t => t.reply == some ⟨0, false⟩)) = true := by
  decide +kernel

/-- START on complete tables, and V-RG4.11, V-RG4.17, V-RG4.20, V-RG4.24. -/
theorem test_start :
    (nextIs (exec .start { configured with bank0 := [(0, O 9), (7, O 9)] })
        (fun t => t.mode == .run && t.capacity == 4 && t.bank0 == [(7, O 9)])
      && [{ configured with initCapacity := 65 }, { configured with growThr := 65537 },
          { configured with shrinkThr := 65536 }, fresh, running [E]].all fun s =>
            nextIs (exec .start s) (fun t => t.mode == s.mode && t.reply == some ⟨0, true⟩)) = true := by
  decide +kernel

/-- T3.22 to T3.25. -/
theorem test_softReset :
    nextIs (exec .softReset faulted)
      (fun t => t.statusWord == 4 && t.faultInfoWord == 0 && t.capacity == 0 && t.initCapacity == 1) = true := by
  decide +kernel

/-- V-G17 by COMPACT_NOW, and its refusal in FAULT (T3.20). -/
theorem test_compactNow :
    (nextIs (exec .compactNow (running [O 0, T, T, O 3, T, O 8, E, E]))
        (fun t => slotsOf t 8 == [O 0, O 3, E, E, O 8, E, E, E] && t.reply == some ⟨0, false⟩)
      && nextIs (exec .compactNow faulted) (fun t => t.reply == some ⟨0, true⟩)) = true := by
  decide +kernel

/-- In FAULT mode too (60_exceptions.md R911). -/
theorem test_wrSlotIndex :
    nextIs (exec (.wrSlotIndex 0x100000003) faulted)
      (fun t => t.slotIndex == 3 && t.reply == some ⟨0, false⟩) = true := by decide +kernel

/-- V-RG5: every WR_REFUSED row is refused, in CONFIG mode. -/
theorem test_wrRefused :
    [Instr.wrRefused01 0, .wrRefused02 0 0, .wrRefused07 1, .wrRefused08 0 8, .wrRefused0A 0,
      .wrRefused0E 0 0, .wrRefused10 1 0, .wrRefused20 0 0, .wrRefused40 0 0, .wrRefused80 127 0].all
      (fun i => nextIs (exec i fresh) (fun t => t == { fresh with reply := some ⟨0, true⟩ })) = true := by
  decide +kernel

/-! ### Steps -/

/-- A response that waits stalls the command (T7.7); rsp_ready takes it (T7.9). -/
theorem test_step_handOver :
    nextIs (step { running [E] with
        rspPending := true,
        inputs := [{ PortIn.low with cmd := some 0x10000000000000005, rspReady := true }] })
      (fun t => !t.rspPending && t.rsp == Response.zero && t.inputs == []) = true := by decide +kernel

/-- The register port is served before the command port (20_memory.md R211). -/
theorem test_step_register_first :
    nextIs (step { running [E] with
        inputs := [{ PortIn.low with cmd := some 0, reg := some 0x0080000000000000000 }] })
      (fun t => t.reply == some ⟨1, false⟩ && !t.rspPending) = true := by decide +kernel

/-- The response transfers while COMPACT_NOW runs (30_encoding.md R304), and a register request waits
(20_memory.md R211). -/
theorem test_step_busy_handOver :
    nextIs (step { beginCompactNow (running [E, E]) with
        rspPending := true,
        inputs := [{ PortIn.low with reg := some 0x0080000000000000000, rspReady := true }] })
      (fun t => !t.rspPending && t.busy && t.reply == none && t.dp.scan == 1) = true := by
  decide +kernel

/-- The presented word is the one that runs, from reset: a register row and a command row. -/
theorem test_withFetchWord :
    (nextIs (step (State.reset.withFetchWord 73 0x1000000000000000003))
        (fun t => t.reply == some ⟨0, true⟩)
      && nextIs (step (State.reset.withFetchWord 66 0x30000000000000005))
        (fun t => t.rspPending && t.rsp.key == 5)) = true := by decide +kernel

/-! ### Witnesses: the hypotheses of each obligation are met

A name test_witness_<obligation> proves all hypotheses of that obligation for the state and operands it
names; where an obligation has several clauses, one conjunct meets the hypotheses of each. -/

/-- A table with one Tombstone, one Empty slot and two keys. -/
def four : State := running [O 20, T, O 10, E]

theorem four_sound : four.Sound := by decide +kernel
theorem four_accepting : four.Accepting := by decide +kernel
theorem four_storageLegal : four.storageLegal := four_sound.2.1

/-- No register request is none that decodes to anything. -/
theorem noReg {w : RegWord} (h : (none : Option RegWord) = some w) : False := by cases h

/-- CAPACITY = 1, the smallest table, its slot free. -/
def one : State := running [E]

theorem test_witness_RstSetsEveryElement :
    ({ faulted with inputs := [{ PortIn.low with rst := true }] } : State).pins.rst = true := by decide

theorem test_witness_StepKeepsSound :
    four.Sound ∧ ∃ t, step four = .next t := ⟨four_sound, _, rfl⟩

theorem test_witness_SoundStatesNeverStop : faulted.Sound ∧ configured.Sound := by decide +kernel

theorem test_witness_EveryOperationKeepsTheStorages :
    four.storageLegal ∧ ∃ t, exec .grow four = .next t := ⟨four_storageLegal, _, rfl⟩

theorem test_witness_TablesAndConfigurationAreLocked :
    faulted.mode ≠ .config ∧ ∃ t, exec (.wrHtData 1) faulted = .next t :=
  ⟨by decide, _, rfl⟩

/-- One step for each of the four ways MODE changes: rst, START, SOFT_RESET, a fault. -/
theorem test_witness_ModeChangesOnlyAsListed :
    (nextIs (step { four with inputs := [{ PortIn.low with rst := true }] })
        (fun t => t.mode == .config)
      && nextIs (step { configured with inputs := [PortIn.ofWord (.reg 0x1000000000000000001)] })
        (fun t => t.mode == .run)
      && nextIs (step { faulted with inputs := [PortIn.ofWord (.reg 0x1000000000000000002)] })
        (fun t => t.mode == .config)
      && nextIs (step { running [O 7] with inputs := [PortIn.ofWord (.cmd 8)] })
        (fun t => t.mode == .fault)) = true
      ∧ four.dp.fsm = .idle := by decide +kernel

theorem test_witness_FaultModeIsLeftOnlyByReset :
    faulted.mode = .fault ∧ faulted.dp.fsm = .idle ∧ faulted.pins.rst = false
      ∧ (∀ w, faulted.pins.reg = some w → decode (.reg w) ≠ .softReset)
      ∧ ∃ t, step faulted = .next t :=
  ⟨rfl, rfl, rfl, fun _ h => (noReg h).elim, _, rfl⟩

/-- `four` with something in slots outside its table, in both banks. -/
def fourElsewhere : State :=
  { four with bank0 := [(0, O 20), (1, T), (2, O 10), (63, O 5)], bank1 := [(0, T)] }

theorem test_witness_SlotsOutsideTheTableDoNotMatter :
    four.Sound ∧ fourElsewhere.Sound ∧ SameView four fourElsewhere ∧ ∃ t, step four = .next t :=
  ⟨four_sound, by decide +kernel, by unfold SameView; decide +kernel, _, rfl⟩

theorem test_witness_DecodeOfEncode :
    (Instr.wrCtrl 3).wellFormed = true
      ∧ encode (.wrCtrl 3) = some (.reg 0x1000000000000000003) := by decide +kernel

/-- For each clause a state: a register word, one together with a transfer, a command, a transfer, and
nothing. -/
theorem test_witness_StepRunsTheDecodedOperation :
    (let p := { PortIn.low with reg := some 0 }
     let s : State := { four with inputs := [p] }
     s.pins.rst = false ∧ s.dp.fsm = .idle ∧ s.pins.reg = some 0
       ∧ (s.rspPending && s.pins.rspReady) = false)
    ∧ (let p := { PortIn.low with reg := some 0, rspReady := true }
       let s : State := { four with rspPending := true, inputs := [p] }
       s.pins.rst = false ∧ s.dp.fsm = .idle ∧ s.pins.reg = some 0
         ∧ (s.rspPending && s.pins.rspReady) = true)
    ∧ (let p := { PortIn.low with cmd := some 5 }
       let s : State := { four with inputs := [p] }
       s.pins.rst = false ∧ s.pins.reg = none ∧ s.pins.cmd = some 5
         ∧ (s.rspPending && s.pins.rspReady) = false)
    ∧ (let s : State :=
        { four with rspPending := true, inputs := [{ PortIn.low with rspReady := true }] }
       s.pins.rst = false ∧ s.pins.reg = none ∧ (s.rspPending && s.pins.rspReady) = true)
    ∧ (four.pins.rst = false ∧ four.pins.reg = none ∧ four.pins.cmd = none
        ∧ (four.rspPending && four.pins.rspReady) = false) := by decide

theorem test_witness_CommandsWaitForCmdReady :
    faulted.mode ≠ .run ∧ ({ four with rspPending := true } : State).rspPending = true
      ∧ (beginCompactNow four).dp.fsm ≠ .idle := by decide

/-- A pending response at an idle engine and at one that compacts by micro-steps, kept and taken. -/
theorem test_witness_PendingResponseIsKept :
    (let s : State := { four with rspPending := true }
     s.rspPending = true ∧ s.dp.fsm = .idle ∧ s.pins.rst = false ∧ s.pins.rspReady = false
       ∧ (∀ w, s.pins.reg = some w → decode (.reg w) ≠ .softReset) ∧ ∃ t, step s = .next t)
    ∧ (let s : State :=
        { four with rspPending := true, inputs := [{ PortIn.low with rspReady := true }] }
       s.rspPending = true ∧ s.dp.fsm = .idle ∧ s.pins.rst = false ∧ s.pins.rspReady = true
         ∧ ∃ t, step s = .next t)
    ∧ (let s : State := { beginCompactNow four with rspPending := true }
       s.rspPending = true ∧ s.dp.fsm = .compactScan ∧ s.pins.rst = false ∧ s.pins.rspReady = false
         ∧ ∃ t, step s = .next t)
    ∧ (let s : State := { beginCompactNow four with
        rspPending := true, inputs := [{ PortIn.low with rspReady := true }] }
       s.rspPending = true ∧ s.dp.fsm = .compactScan ∧ s.pins.rst = false ∧ s.pins.rspReady = true
         ∧ ∃ t, step s = .next t) :=
  ⟨⟨rfl, rfl, rfl, rfl, fun _ h => (noReg h).elim, _, rfl⟩, ⟨rfl, rfl, rfl, rfl, _, rfl⟩,
    ⟨rfl, rfl, rfl, rfl, _, rfl⟩, rfl, rfl, rfl, rfl, _, rfl⟩

theorem test_witness_BusyEngineServesNoPort :
    ((beginCompactNow four).pins.rst = false ∧ (beginCompactNow four).dp.fsm ≠ .idle
      ∧ 1 ≤ (beginCompactNow four).capacity.toNat
      ∧ (beginCompactNow four).capacity.toNat ≤ (beginCompactNow four).capMax)
    ∧ ((beginStart configured).pins.rst = false ∧ (beginStart configured).dp.fsm = .initClear) := by
  decide

theorem test_witness_HashIsTheXorOfEightEntries : tvb.tablesComplete = true := by decide +kernel

theorem test_witness_HashIsLinearInTheLanes :
    ∀ i < 8, i ∉ [7] → keyByte 0x00000000000000FF i = keyByte 0 i := by decide

/-- The operands of the probes at the largest home index, with and without a find, and of a probe of one
slot. -/
theorem test_witness_HashAndProbesLatchTheirResult :
    (1 ≤ (4 : Word32).toNat ∧ (4 : Word32).toNat ≤ four.capMax ∧ (3 : Word32).toNat < (4 : Word32).toNat
      ∧ FirstAt Slot.isEmpty (four.bank 0) 3 4 0)
    ∧ NowhereIn Slot.isEmpty ((running [O 1, T, O 2, T]).bank 0) 1 4
    ∧ FirstAt (endsKeyProbe four.lookupEmptyStop 10) four.table 3 4 3
    ∧ NowhereIn (endsKeyProbe one.lookupEmptyStop 0) one.table 0 1 := by
  unfold FirstAt NowhereIn
  decide +kernel

theorem test_witness_FoundPositionHoldsTheKey :
    (probeKey true (bankOf [O 7]) 0 1 7).found = some 0
      ∧ (probeFree (bankOf [O 7, E]) 0 2).found = some 1
      ∧ (probeKey false (bankOf [E]) 0 1 0).found = none := by decide +kernel

theorem test_witness_EveryProbeHasOneOutcome : one.Accepting ∧ four.Accepting := by decide +kernel

theorem four_finds_10 : KeyFoundAt four 10 2 :=
  ⟨0, by unfold FirstAt; decide +kernel, by decide +kernel, by decide +kernel⟩

theorem four_misses_11 : KeyNotFound four 11 := .inl (by unfold NowhereIn; decide +kernel)

theorem four_empty_for_11 : EmptyFoundAt four 11 3 :=
  ⟨0, by unfold FirstAt; decide +kernel, by decide +kernel⟩

theorem test_witness_LookupReportsTheFirstCopy :
    four.Accepting ∧ KeyFoundAt four 10 2 ∧ KeyNotFound four 11
      ∧ (stopping four).Accepting ∧ KeyNotFound (stopping four) 11 :=
  ⟨four_accepting, four_finds_10, four_misses_11, by decide +kernel,
    .inr ⟨0, by unfold FirstAt; decide +kernel, by decide +kernel⟩⟩

/-- At the threshold, 3 of 4. -/
theorem test_witness_InsertWritesTheFirstEmptySlot :
    four.Accepting ∧ four.storageLegal ∧ EmptyFoundAt four 11 3
      ∧ (four.filled + 1).toNat * 65536 ≤ four.growThr.toNat * four.capacity.toNat :=
  ⟨four_accepting, four_storageLegal, four_empty_for_11, by decide +kernel⟩

theorem one_empty : EmptyFoundAt one 7 0 :=
  ⟨0, by unfold FirstAt; decide +kernel, by decide +kernel⟩

theorem test_witness_InsertAboveTheThresholdGrows :
    one.buildLegal ∧ one.Accepting ∧ one.storageLegal ∧ EmptyFoundAt one 7 0
      ∧ one.growThr.toNat * one.capacity.toNat < (one.filled + 1).toNat * 65536
      ∧ 2 * one.capacity.toNat ≤ one.capMax :=
  ⟨by decide +kernel, by decide +kernel, by decide +kernel, one_empty, by decide +kernel,
    by decide +kernel⟩

/-- `one` in a build with CAP_MAX = 1. -/
def oneOnly : State := { one with capMax := 1 }

theorem test_witness_InsertPastCapMaxFaults :
    oneOnly.Accepting ∧ oneOnly.storageLegal ∧ EmptyFoundAt oneOnly 7 0
      ∧ oneOnly.growThr.toNat * oneOnly.capacity.toNat < (oneOnly.filled + 1).toNat * 65536
      ∧ oneOnly.capMax < 2 * oneOnly.capacity.toNat :=
  ⟨by decide +kernel, by decide +kernel,
    ⟨0, by unfold FirstAt; decide +kernel, by decide +kernel⟩, by decide +kernel, by decide +kernel⟩

theorem test_witness_InsertIntoAFullTableFaults :
    (running [O 1, T, O 2, T]).Accepting ∧ NoEmptySlot (running [O 1, T, O 2, T]) :=
  ⟨by decide +kernel, by unfold NoEmptySlot; decide +kernel⟩

theorem test_witness_ProbeFullExactlyWhenTheCountsFillTheTable :
    (running [O 1, T, O 2, T]).Sound ∧ (running [O 1, T, O 2, T]).Accepting := by decide +kernel

theorem test_witness_InsertThenLookupFinds :
    one.Sound ∧ one.Accepting ∧ one.lookupEmptyStop = false
      ∧ nextIs (exec (.insert 7) one) (fun t => t.mode == .run) = true := by decide +kernel

theorem test_witness_RemoveOfAnAbsentKey : four.Accepting ∧ KeyNotFound four 11 :=
  ⟨four_accepting, four_misses_11⟩

/-- A table in which removing key 10 triggers nothing, REMOVED at the boundary of the comparator. -/
def roomy : State := running [E, E, O 10, O 3, E, E, E, T]

theorem roomy_finds_10 : KeyFoundAt roomy 10 2 :=
  ⟨0, by unfold FirstAt; decide +kernel, by decide +kernel, by decide +kernel⟩

/-- Both comparators at equality: 4 * 2 = 8 and 1 * 65536 = 8192 * 8. -/
theorem test_witness_RemoveWritesATombstone :
    (let s : State := { roomy with shrinkThr := 8192 }
     s.Accepting ∧ s.storageLegal ∧ KeyFoundAt s 10 2 ∧ 4 * (s.removed + 1).toNat ≤ s.capacity.toNat
       ∧ s.shrinkThr.toNat * s.capacity.toNat ≤ (s.filled - 1).toNat * 65536) :=
  ⟨by decide +kernel, by decide +kernel,
    ⟨0, by unfold FirstAt; decide +kernel, by decide +kernel, by decide +kernel⟩,
    by decide +kernel, by decide +kernel⟩

/-- `four` compacts and does not shrink; `roomy` shrinks and does not compact. -/
theorem test_witness_RemoveRunsItsCascade :
    (four.Accepting ∧ four.storageLegal ∧ KeyFoundAt four 10 2
      ∧ four.capacity.toNat < 4 * (four.removed + 1).toNat)
    ∧ (roomy.Accepting ∧ roomy.storageLegal ∧ KeyFoundAt roomy 10 2
      ∧ (roomy.filled - 1).toNat * 65536 < roomy.shrinkThr.toNat * roomy.capacity.toNat
      ∧ 1 < roomy.capacity.toNat) :=
  ⟨⟨four_accepting, four_storageLegal, four_finds_10, by decide +kernel⟩,
    by decide +kernel, by decide +kernel, roomy_finds_10, by decide +kernel, by decide +kernel⟩

theorem test_witness_NoShrinkFaultUpToHalf :
    (let s : State := { roomy with shrinkThr := 32768 }
     s.Sound ∧ s.Accepting ∧ s.shrinkThr.toNat ≤ 32768
       ∧ nextIs (exec (.remove 10) s) (fun t => t.capacity == 4) = true) := by decide +kernel

theorem test_witness_RemoveThenLookupMisses :
    four.Sound ∧ four.Accepting ∧ (keysOf four.table four.capacity.toNat).count 10 = 1
      ∧ nextIs (exec (.remove 10) four) (fun t => t.mode == .run && t.rsp.status == .ok) = true := by
  decide +kernel

theorem test_witness_ReservedCommandAnswersIllegal : four.Accepting := four_accepting

theorem test_witness_OneOutcomePerCommand :
    four.Accepting
      ∧ (((0b00#2 : BitVec 2) = 0b00 ∧ Instr.insert 1 = .insert 1)
        ∧ ((0b01#2 : BitVec 2) = 0b01 ∧ Instr.lookup 1 = .lookup 1)
        ∧ ((0b10#2 : BitVec 2) = 0b10 ∧ Instr.remove 1 = .remove 1)
        ∧ ((0b11#2 : BitVec 2) = 0b11 ∧ Instr.cmdReserved 1 = .cmdReserved 1)) :=
  ⟨four_accepting, ⟨rfl, rfl⟩, ⟨rfl, rfl⟩, ⟨rfl, rfl⟩, rfl, rfl⟩

/-- Doubling to CAP_MAX exactly, and past it. -/
theorem test_witness_GrowDoublesOrFaults :
    (let s : State := { four with capMax := 8 }
     s.buildLegal ∧ s.storageLegal ∧ 1 ≤ s.capacity.toNat ∧ s.capacity.toNat ≤ s.capMax
       ∧ 2 * s.capacity.toNat ≤ s.capMax)
    ∧ (let s : State := { four with capMax := 7 }
       s.buildLegal ∧ s.storageLegal ∧ 1 ≤ s.capacity.toNat ∧ s.capacity.toNat ≤ s.capMax
         ∧ s.capMax < 2 * s.capacity.toNat) := by decide +kernel

/-- CAPACITY 1; 2 keys for 2 slots; 3 keys for 2 slots. -/
theorem test_witness_ShrinkHalvesOrFaults :
    (1 ≤ one.capacity.toNat ∧ one.capacity.toNat ≤ one.capMax ∧ one.storageLegal
      ∧ one.capacity.toNat = 1)
    ∧ (1 < four.capacity.toNat ∧ four.capacity.toNat ≤ four.capMax ∧ four.storageLegal
      ∧ countSlots Slot.isOccupied four.table four.capacity.toNat ≤ four.capacity.toNat / 2)
    ∧ (let s := running [O 1, O 2, O 3, E, E]
       1 < s.capacity.toNat ∧ s.capacity.toNat ≤ s.capMax ∧ s.storageLegal
         ∧ s.capacity.toNat / 2 < countSlots Slot.isOccupied s.table s.capacity.toNat) := by
  decide +kernel

/-- Two keys into two slots. -/
theorem test_witness_RebuildPlacesKeysInOrder :
    1 ≤ four.capacity.toNat ∧ four.capacity.toNat ≤ four.capMax ∧ four.storageLegal
      ∧ 1 ≤ (2 : Word32).toNat ∧ (2 : Word32).toNat ≤ four.capMax
      ∧ (keysOf four.table four.capacity.toNat).length ≤ (2 : Word32).toNat := by decide +kernel

/-- Two keys into one slot. -/
theorem test_witness_RebuildOverflowKeepsTheOldTable :
    1 ≤ four.capacity.toNat ∧ four.capacity.toNat ≤ four.capMax ∧ four.storageLegal
      ∧ 1 ≤ (1 : Word32).toNat ∧ (1 : Word32).toNat ≤ four.capMax
      ∧ (1 : Word32).toNat < (keysOf four.table four.capacity.toNat).length := by decide +kernel

/-- The gap with a Tombstone at slot 1 before the run at slot 2, the run without a gap at slot 0, and the
gap at the end. -/
theorem test_witness_CompactMovesEachRunIntoItsGap :
    1 ≤ four.capacity.toNat ∧ four.capacity.toNat ≤ four.capMax ∧ four.storageLegal
      ∧ GapAndRun four 1 2 3 ∧ four.slot 1 = .tombstone
      ∧ GapAndRun four 0 0 1 ∧ (∀ i < 0, 0 ≤ i → four.slot i ≠ .tombstone)
      ∧ GapAndRun four 3 4 4 ∧ (∀ i < 4, 3 ≤ i → four.slot i ≠ .tombstone) := by
  unfold GapAndRun
  refine ⟨?_, ?_, four_storageLegal, ?_, ?_, ?_, ?_, ?_, ?_⟩ <;> decide +kernel

theorem test_witness_CompactKeepsTheKeysInOrder :
    1 ≤ four.capacity.toNat ∧ four.capacity.toNat ≤ four.capMax ∧ four.storageLegal := by
  decide +kernel

/-- Slot reads of an Occupied slot, a Tombstone and the last, Empty slot below CAPACITY, one at CAPACITY;
HT_DATA at a written entry; CAP_MAX below 2^32. -/
theorem test_witness_RegisterReads :
    four.dp.fsm = .idle ∧ four.capacity.toNat ≤ four.capMax
      ∧ four.htw.getLsbD four.htIndex.toNat = true
      ∧ (let s : State := { four with slotIndex := 0 }
         s.slotIndex.toNat < s.capacity.toNat ∧ s.slot s.slotIndex.toNat = .occupied 20)
      ∧ (let s : State := { four with slotIndex := 1 }
         s.slotIndex.toNat < s.capacity.toNat ∧ s.slot s.slotIndex.toNat = .tombstone)
      ∧ (let s : State := { four with slotIndex := 3 }
         s.slotIndex.toNat < s.capacity.toNat ∧ s.slot s.slotIndex.toNat = .empty)
      ∧ (let s : State := { four with slotIndex := 4 }
         s.capacity.toNat ≤ s.slotIndex.toNat)
      ∧ four.capMax < 2 ^ 32 ∧ 0x11 ≤ (0x11 : BitVec 8).toNat := by decide +kernel

theorem test_witness_UnwrittenEntryReadsSomeValue :
    fresh.dp.fsm = .idle ∧ fresh.htw.getLsbD fresh.htIndex.toNat = false := by decide +kernel

theorem test_witness_ConfigurationWrites :
    (fresh.dp.fsm = .idle ∧ fresh.mode = .config) ∧ (four.dp.fsm = .idle ∧ four.mode ≠ .config) := by
  decide

/-- The last entry, where HT_INDEX wraps; and RUN mode. -/
theorem test_witness_TableEntryWrite :
    (let s : State := { fresh with htIndex := 0x7FF }
     s.dp.fsm = .idle ∧ s.mode = .config ∧ s.storageLegal)
    ∧ (four.dp.fsm = .idle ∧ four.mode ≠ .config) := by decide +kernel

theorem test_witness_CtrlWriteDecode :
    ((0 : Word64) ≠ 0x1 ∧ (0 : Word64) ≠ 0x2 ∧ (0 : Word64) ≠ 0x4)
      ∧ ((3 : Word64) ≠ 0x1 ∧ (3 : Word64) ≠ 0x2 ∧ (3 : Word64) ≠ 0x4 ∧ (3 : Word64) ≠ 0)
      ∧ fresh.dp.fsm = .idle := by decide

/-- Every condition at the end of its range: INIT_CAPACITY = CAP_MAX, GROW_THR = 65536,
SHRINK_THR = 65535; and a refusal. -/
theorem test_witness_StartBuildsAnEmptyTable :
    (let s : State :=
      { configured with initCapacity := 64, growThr := 65536, shrinkThr := 65535 }
     s.dp.fsm = .idle ∧ s.mode = .config
       ∧ (1 ≤ s.initCapacity.toNat ∧ s.initCapacity.toNat ≤ s.capMax)
       ∧ (1 ≤ s.growThr.toNat ∧ s.growThr.toNat ≤ 65536) ∧ s.shrinkThr.toNat ≤ 65535
       ∧ s.tablesComplete = true)
    ∧ (fresh.dp.fsm = .idle ∧ fresh.tablesComplete = false) := by decide +kernel

theorem test_witness_SoftResetLeavesConfig : faulted.dp.fsm = .idle := rfl

theorem test_witness_CompactNowCompacts :
    (four.dp.fsm = .idle ∧ four.mode = .run ∧ 1 ≤ four.capacity.toNat
      ∧ four.capacity.toNat ≤ four.capMax) ∧ (faulted.dp.fsm = .idle ∧ faulted.mode ≠ .run) := by
  decide

theorem test_witness_SlotIndexAndRefusedWrites : faulted.dp.fsm = .idle := rfl

/-- CAPACITY one past CAP_MAX, operands one past their range, the first slot that does not exist. -/
theorem test_witness_OutOfRangeStates :
    (let s : State := { four with capMax := 3 }
     s.capMax < s.capacity.toNat ∧ s.mode = .run ∧ s.dp.fsm = .idle ∧ s.rspPending = false)
    ∧ (four.capMax < (65 : Word32).toNat ∧ (4 : Word32).toNat ≤ (4 : Word32).toNat)
    ∧ (1 ≤ four.capacity.toNat ∧ four.capacity.toNat ≤ four.capMax ∧ (0 : Word32).toNat = 0
      ∧ four.capMax < (65 : Word32).toNat)
    ∧ (let s : State := { four with capMax := 3, slotIndex := 3 }
       s.dp.fsm = .idle ∧ s.slotIndex.toNat < s.capacity.toNat
         ∧ s.capMax ≤ s.slotIndex.toNat) := by decide

theorem test_witness_LookupByMicroSteps :
    four.Sound ∧ four.Accepting ∧ ∃ t, exec (.lookup 10) four = .next t :=
  ⟨four_sound, four_accepting, _, rfl⟩

theorem test_witness_InsertAndRemoveByMicroSteps :
    four.Sound ∧ four.Accepting ∧ (∃ t, exec (.insert 10) four = .next t)
      ∧ ∃ t, exec (.remove 10) four = .next t :=
  ⟨four_sound, four_accepting, ⟨_, rfl⟩, _, rfl⟩

theorem test_witness_CtrlActionsByMicroSteps :
    (configured.Sound ∧ configured.startLegal = true ∧ ∃ t, exec .start configured = .next t)
      ∧ (four.Sound ∧ four.mode = .run ∧ ∃ t, exec .compactNow four = .next t) :=
  ⟨⟨by decide +kernel, by decide +kernel, _, rfl⟩, four_sound, rfl, _, rfl⟩

end Sys2Proof.Tests
end

section
/-! SUPPORT. Counting the slots of a table: one more slot, one slot written, equal reads; what the
counts say about a probe for a free slot. -/

namespace Sys2Proof.Machine

section Counting

variable {p : Slot → Bool} {m m' : Memory Slot} {c i : Nat} {v : Slot}

/-- Two banks that read alike in slots 0..c-1, the table of capacity `c`. -/
def AgreeBelow (c : Nat) (m m' : Memory Slot) : Prop :=
  ∀ i < c, Memory.read .empty m' i = Memory.read .empty m i

theorem AgreeBelow.mono {d : Nat} (h : AgreeBelow c m m') (hd : d ≤ c) : AgreeBelow d m m' :=
  fun i hi => h i (Nat.lt_of_lt_of_le hi hd)

/-- The same value written to the same slot of both banks. -/
theorem AgreeBelow.write (h : AgreeBelow c m m') (hm : Memory.wf .empty m)
    (hm' : Memory.wf .empty m') (i : Nat) (v : Slot) :
    AgreeBelow c (Memory.write .empty m i v) (Memory.write .empty m' i v) := by
  intro k hk
  rw [Memory.read_write hm.1, Memory.read_write hm'.1, h k hk]

theorem AgreeBelow.clearBelow (c : Nat) (m m' : Memory Slot) :
    AgreeBelow c (Memory.clearBelow c m) (Memory.clearBelow c m') := by
  intro k hk
  simp [Memory.read_clearBelow, hk]

@[simp] theorem countSlots_zero : countSlots p m 0 = 0 := rfl

theorem countSlots_succ (p : Slot → Bool) (m : Memory Slot) (c : Nat) :
    countSlots p m (c + 1) = countSlots p m c + (p (Memory.read .empty m c)).toNat := by
  cases h : p (Memory.read .empty m c) <;>
    simp [countSlots, List.range_succ, List.countP_append, h]

theorem countSlots_congr (h : AgreeBelow c m m') : countSlots p m' c = countSlots p m c := by
  refine List.countP_congr fun i hi => ?_
  rw [h i (List.mem_range.1 hi)]

theorem countSlots_eq_zero_iff :
    countSlots p m c = 0 ↔ ∀ i < c, p (Memory.read .empty m i) = false := by
  simp [countSlots, List.countP_eq_zero]

theorem countSlots_mono (p : Slot → Bool) (m : Memory Slot) {c d : Nat} (h : c ≤ d) :
    countSlots p m c ≤ countSlots p m d := by
  induction h with
  | refl => exact Nat.le_refl _
  | step _ ih => rw [countSlots_succ]; omega

theorem countSlots_le (p : Slot → Bool) (m : Memory Slot) (c : Nat) : countSlots p m c ≤ c := by
  simpa [countSlots] using
    List.countP_le_length (p := fun i => p (Memory.read .empty m i)) (l := List.range c)

/-- A slot write takes the old value out of the count and puts the new one in. -/
theorem countSlots_write (p : Slot → Bool) (hm : Memory.wf .empty m) (hi : i < c) (v : Slot) :
    countSlots p (Memory.write .empty m i v) c + (p (Memory.read .empty m i)).toNat
      = countSlots p m c + (p v).toNat := by
  induction c with
  | zero => omega
  | succ c ih =>
    rw [countSlots_succ, countSlots_succ]
    rcases Nat.lt_succ_iff_lt_or_eq.1 hi with hlt | rfl
    · have := ih hlt
      rw [Memory.read_write_other (Nat.ne_of_lt hlt)]
      omega
    · have : AgreeBelow i m (Memory.write .empty m i v) :=
        fun k hk => Memory.read_write_other (Nat.ne_of_gt hk)
      rw [countSlots_congr this, Memory.read_write_same hm.1]
      omega

/-- A cleared table holds nothing to count. -/
theorem countSlots_clearBelow (hp : p .empty = false) (m : Memory Slot) (c : Nat) :
    countSlots p (Memory.clearBelow c m) c = 0 := by
  refine countSlots_eq_zero_iff.2 fun i hi => ?_
  rw [Memory.read_clearBelow, if_pos hi, hp]

/-- Every slot is Occupied, a Tombstone or Empty (00_scope.md R14). -/
theorem countSlots_partition (m : Memory Slot) (c : Nat) :
    countSlots Slot.isOccupied m c + countSlots Slot.isTomb m c + countSlots Slot.isEmpty m c
      = c := by
  induction c with
  | zero => rfl
  | succ c ih =>
    simp only [countSlots_succ]
    cases Memory.read .empty m c <;>
      simp only [Slot.isOccupied, Slot.isTomb, Slot.isEmpty, Bool.toNat_true, Bool.toNat_false]
      <;> omega

theorem Slot.isEmpty_iff : v.isEmpty = true ↔ v = .empty := by cases v <;> simp [Slot.isEmpty]

theorem Slot.isTomb_iff : v.isTomb = true ↔ v = .tombstone := by cases v <;> simp [Slot.isTomb]

/-- Every slot of the table has an offset in the probe order (41_probe_cam.md R501). -/
theorem exists_offset (home : Nat) (hi : i < c) : ∃ o < c, (home + o) % c = i := by
  refine ⟨(i + (c - home % c)) % c, Nat.mod_lt _ (by omega), ?_⟩
  have hr : home % c < c := Nat.mod_lt _ (by omega)
  calc (home + (i + (c - home % c)) % c) % c
      = (home % c + (i + (c - home % c))) % c := by simp [Nat.add_mod]
    _ = (i + c) % c := by congr 1; omega
    _ = i := by rw [Nat.add_mod_right, Nat.mod_eq_of_lt hi]

/-- PROBE_FREE fails exactly when no slot of the table is Empty, from whatever home index. -/
theorem probeFree_none_iff {home : Nat} :
    (probeFree m home c).found = none ↔ ∀ i < c, Memory.read .empty m i ≠ .empty := by
  rw [probeFree_none]
  constructor
  · intro h i hi
    obtain ⟨o, ho, rfl⟩ := exists_offset home hi
    exact h o ho
  · exact fun h o ho => h _ (Nat.mod_lt _ (by omega))

/-- PROBE_FREE fails exactly when the Occupied slots and the Tombstones fill the table
(70_reset_and_hazards.md R1004). -/
theorem probeFree_none_iff_counts {home : Nat} :
    (probeFree m home c).found = none
      ↔ countSlots Slot.isOccupied m c + countSlots Slot.isTomb m c = c := by
  have hsum := countSlots_partition m c
  have hzero : countSlots Slot.isEmpty m c = 0 ↔ ∀ i < c, Memory.read .empty m i ≠ .empty := by
    simp only [countSlots_eq_zero_iff, ← Bool.not_eq_true, Slot.isEmpty_iff, ne_eq]
  rw [probeFree_none_iff, ← hzero]
  omega

theorem probeFree_reads_empty {home k : Nat} (h : (probeFree m home c).found = some k) :
    Memory.read .empty m k = .empty := by
  obtain ⟨off, -, rfl, he, -⟩ := probeFree_found h
  exact he

theorem probeKey_reads_key {home k : Nat} {stop : Bool} {key : Word64}
    (h : (probeKey stop m home c key).found = some k) :
    Memory.read .empty m k = .occupied key := by
  obtain ⟨off, -, rfl, he, -⟩ := probeKey_found h
  exact he

/-- A probe looks at the slots of the table only. -/
theorem probeFrom_agree (h : AgreeBelow c m m') (hc : 0 < c) (hit stop : Slot → Bool)
    (home n off : Nat) :
    probeFrom m' home c hit stop n off = probeFrom m home c hit stop n off := by
  induction n generalizing off with
  | zero => rfl
  | succ n ih => simp only [probeFrom, h _ (Nat.mod_lt _ hc), ih]

theorem probeFree_agree (h : AgreeBelow c m m') (home : Nat) :
    probeFree m' home c = probeFree m home c := by
  rcases Nat.eq_zero_or_pos c with rfl | hc
  · rfl
  · exact probeFrom_agree h hc _ _ _ _ _

theorem probeKey_agree (h : AgreeBelow c m m') (stop : Bool) (home : Nat) (k : Word64) :
    probeKey stop m' home c k = probeKey stop m home c k := by
  rcases Nat.eq_zero_or_pos c with rfl | hc
  · rfl
  · exact probeFrom_agree h hc _ _ _ _ _

end Counting

end Sys2Proof.Machine
end

section
/-! SUPPORT. What the placement loop of a rebuild does to the counts (43_sequencer.md R707, R708). -/

namespace Sys2Proof.Machine

section Placement

variable {hash : Word64 → Word64} {old old' fresh fresh' : Memory Slot} {N : Nat}

/-- Placing a key in an Empty slot adds one Occupied slot and no Tombstone. -/
theorem countSlots_place {home p : Nat} (hf : Memory.wf .empty fresh)
    (hp : (probeFree fresh home N).found = some p) (k : Word64) :
    countSlots Slot.isOccupied (Memory.write .empty fresh p (.occupied k)) N
        = countSlots Slot.isOccupied fresh N + 1
      ∧ countSlots Slot.isTomb (Memory.write .empty fresh p (.occupied k)) N
        = countSlots Slot.isTomb fresh N := by
  have hocc := countSlots_write Slot.isOccupied hf (probeFree_lt hp) (.occupied k)
  have htomb := countSlots_write Slot.isTomb hf (probeFree_lt hp) (.occupied k)
  rw [probeFree_reads_empty hp] at hocc htomb
  exact ⟨hocc, htomb⟩

/-- The placement loop writes no Tombstone. -/
theorem placeFrom_tombs (n j : Nat) (hf : Memory.wf .empty fresh) :
    countSlots Slot.isTomb (placeFrom hash old N n j fresh).1 N
      = countSlots Slot.isTomb fresh N := by
  fun_induction placeFrom hash old N n j fresh with
  | case1 => rfl
  | case2 n j fresh k hk p hp ih => rw [ih (Memory.wf_write hf), (countSlots_place hf hp k).2]
  | case3 => rfl
  | case4 n j fresh hk ih => exact ih hf
  | case5 n j fresh hk ih => exact ih hf

/-- A placement loop that ends has placed each Occupied slot of old slots j..j+n-1. -/
theorem placeFrom_occupied (n j : Nat) (hf : Memory.wf .empty fresh)
    (hdone : (placeFrom hash old N n j fresh).2 = true) :
    countSlots Slot.isOccupied (placeFrom hash old N n j fresh).1 N
        + countSlots Slot.isOccupied old j
      = countSlots Slot.isOccupied fresh N + countSlots Slot.isOccupied old (j + n) := by
  fun_induction placeFrom hash old N n j fresh with
  | case1 => simp
  | case2 n j fresh k hk p hp ih =>
    have hrest := ih (Memory.wf_write hf) hdone
    rw [(countSlots_place hf hp k).1, countSlots_succ, hk, Nat.add_right_comm j 1 n] at hrest
    simp only [Slot.isOccupied, Bool.toNat_true] at hrest
    rw [Nat.succ_eq_add_one, ← Nat.add_assoc]
    omega
  | case3 => cases hdone
  | case4 n j fresh hk ih =>
    have hrest := ih hf hdone
    rw [countSlots_succ, hk, Nat.add_right_comm j 1 n] at hrest
    exact hrest
  | case5 n j fresh hk ih =>
    have hrest := ih hf hdone
    rw [countSlots_succ, hk, Nat.add_right_comm j 1 n] at hrest
    exact hrest

/-- The placement loop ends when the keys left to place have room (43_sequencer.md R708). -/
theorem placeFrom_succeeds (n j : Nat) (hf : Memory.wf .empty fresh)
    (htomb : countSlots Slot.isTomb fresh N = 0)
    (hroom : countSlots Slot.isOccupied fresh N + countSlots Slot.isOccupied old (j + n)
      ≤ N + countSlots Slot.isOccupied old j) :
    (placeFrom hash old N n j fresh).2 = true := by
  fun_induction placeFrom hash old N n j fresh with
  | case1 => rfl
  | case2 n j fresh k hk p hp ih =>
    obtain ⟨hocc, htomb'⟩ := countSlots_place hf hp k
    refine ih (Memory.wf_write hf) (htomb'.trans htomb) ?_
    rw [hocc, countSlots_succ, hk, Nat.add_right_comm j 1 n]
    simp only [Slot.isOccupied, Bool.toNat_true]
    rw [Nat.succ_eq_add_one, ← Nat.add_assoc] at hroom
    omega
  | case3 n j fresh k hk hp =>
    have hfull := probeFree_none_iff_counts.1 hp
    have hmore := countSlots_mono Slot.isOccupied old (show j + 1 ≤ j + n.succ by omega)
    rw [countSlots_succ, hk] at hmore
    simp only [Slot.isOccupied, Bool.toNat_true] at hmore
    omega
  | case4 n j fresh hk ih =>
    refine ih hf htomb ?_
    rw [countSlots_succ, hk, Nat.add_right_comm j 1 n]
    exact hroom
  | case5 n j fresh hk ih =>
    refine ih hf htomb ?_
    rw [countSlots_succ, hk, Nat.add_right_comm j 1 n]
    exact hroom

/-- The placement loop looks at the slots of the old table and of the new one only. -/
theorem placeFrom_agree {c : Nat} (ho : AgreeBelow c old old') (n j : Nat) (hj : j + n ≤ c)
    (hf : AgreeBelow N fresh fresh') (hw : Memory.wf .empty fresh)
    (hw' : Memory.wf .empty fresh') :
    (placeFrom hash old' N n j fresh').2 = (placeFrom hash old N n j fresh).2
      ∧ AgreeBelow N (placeFrom hash old N n j fresh).1 (placeFrom hash old' N n j fresh').1 := by
  induction n generalizing j fresh fresh' with
  | zero => exact ⟨rfl, hf⟩
  | succ n ih =>
    unfold placeFrom
    rw [ho j (by omega)]
    cases Memory.read .empty old j with
    | empty => exact ih _ (by omega) hf hw hw'
    | tombstone => exact ih _ (by omega) hf hw hw'
    | occupied k =>
      dsimp only
      rw [probeFree_agree hf]
      cases (probeFree fresh ((hash k).toNat % N) N).found with
      | none => exact ⟨rfl, hf⟩
      | some p =>
        exact ih _ (by omega) (hf.write hw hw' _ _) (Memory.wf_write hw) (Memory.wf_write hw')

end Placement

end Sys2Proof.Machine
end

section
/-! SUPPORT. What the compaction loops do to the counts and to the slots of the table
(43_sequencer.md R710, R711). -/

namespace Sys2Proof.Machine

section Compaction

variable {m m' : Memory Slot} {c size i j : Nat}

/-- No slot of lo..hi-1 is Occupied. -/
def NoneOccupied (m : Memory Slot) (lo hi : Nat) : Prop :=
  ∀ k, lo ≤ k → k < hi → (Memory.read .empty m k).isOccupied = false

/-- The slots the scan of a compaction has passed hold no Tombstone. -/
def NoTombBelow (m : Memory Slot) (i : Nat) : Prop := ∀ k < i, Memory.read .empty m k ≠ .tombstone

/-- The run start of a compaction's scan: a slot passed, with no Occupied slot since
(43_sequencer.md R710). -/
def GapOpen (m : Memory Slot) (start : Option Nat) (i : Nat) : Prop :=
  ∀ st, start = some st → st < i ∧ NoneOccupied m st i

/-- One turn of the inner loop: the key of slot `j` goes to slot `j - size`, slot `j` is Empty. -/
abbrev shiftSlot (size j : Nat) (k : Word64) (m : Memory Slot) : Memory Slot :=
  Memory.write .empty (Memory.write .empty m (j - size) (.occupied k)) j .empty

theorem read_shiftSlot (hm : Memory.wf .empty m) (k : Word64) (i : Nat) :
    Memory.read .empty (shiftSlot size j k m) i
      = if j = i then .empty else if j - size = i then .occupied k else Memory.read .empty m i := by
  rw [Memory.read_write (Memory.wf_write hm).1, Memory.read_write hm.1]

/-- The gap moves one slot to the right with the key. -/
theorem noneOccupied_shiftSlot (hm : Memory.wf .empty m) (hsize : 0 < size) (hle : size ≤ j)
    (hgap : NoneOccupied m (j - size) j) (k : Word64) :
    NoneOccupied (shiftSlot size j k m) (j + 1 - size) (j + 1) := by
  intro i hlo hhi
  rw [read_shiftSlot hm]
  split
  · rfl
  · rw [if_neg (by omega)]
    exact hgap i (by omega) (by omega)

/-- Moving a key into a gap keeps the number of Occupied slots. -/
theorem occupied_shiftSlot (hm : Memory.wf .empty m) (hsize : 0 < size) (hle : size ≤ j)
    (hj : j < c) (hgap : NoneOccupied m (j - size) j) {k : Word64}
    (hk : Memory.read .empty m j = .occupied k) :
    countSlots Slot.isOccupied (shiftSlot size j k m) c = countSlots Slot.isOccupied m c := by
  have hplace := countSlots_write Slot.isOccupied hm (show j - size < c by omega) (.occupied k)
  have hclear := countSlots_write Slot.isOccupied
    (Memory.wf_write (i := j - size) (v := .occupied k) hm) hj .empty
  rw [hgap _ (Nat.le_refl _) (by omega)] at hplace
  rw [Memory.read_write_other (by omega), hk] at hclear
  simp only [Slot.isOccupied, Bool.toNat_true, Bool.toNat_false] at hplace hclear
  unfold shiftSlot
  omega

/-- The inner loop, entered behind a gap of `size` slots, keeps the number of Occupied slots. -/
theorem shiftRun_occupied (n : Nat) (hm : Memory.wf .empty m) (hsize : 0 < size) (hle : size ≤ j)
    (hgap : NoneOccupied m (j - size) j) :
    countSlots Slot.isOccupied (shiftRun c size n j m).1 c = countSlots Slot.isOccupied m c := by
  fun_induction shiftRun c size n j m with
  | case1 => rfl
  | case2 n j m hj k hk ih =>
    rw [ih (Memory.wf_write (Memory.wf_write hm)) (by omega)
      (noneOccupied_shiftSlot hm hsize hle hgap k)]
    exact occupied_shiftSlot hm hsize hle hj hgap hk
  | case3 => rfl
  | case4 => rfl
  | case5 => rfl

/-- The inner loop moves the run it is entered at by one slot or more. -/
theorem shiftRun_advances {n : Nat} {k : Word64} (hj : j < c)
    (hk : Memory.read .empty m j = .occupied k) : j < (shiftRun c size (n + 1) j m).2 := by
  rw [shiftRun, if_pos hj, hk]
  exact (shiftRun_bounds _ _ _).1

/-- The inner loop passes Occupied slots only and leaves no Tombstone behind it. -/
theorem shiftRun_noTomb (n : Nat) (hm : Memory.wf .empty m) (h : NoTombBelow m j) :
    NoTombBelow (shiftRun c size n j m).1 (shiftRun c size n j m).2 := by
  fun_induction shiftRun c size n j m with
  | case1 => exact h
  | case2 n j m hj k hk ih =>
    refine ih (Memory.wf_write (Memory.wf_write hm)) fun i hi => ?_
    rw [read_shiftSlot hm]
    split
    · simp
    · split
      · simp
      · exact h i (by omega)
  | case3 => exact h
  | case4 => exact h
  | case5 => exact h

/-- The inner loop looks at the slots of the table only. -/
theorem shiftRun_agree (n j : Nat) (h : AgreeBelow c m m') (hm : Memory.wf .empty m)
    (hm' : Memory.wf .empty m') :
    (shiftRun c size n j m').2 = (shiftRun c size n j m).2
      ∧ AgreeBelow c (shiftRun c size n j m).1 (shiftRun c size n j m').1 := by
  induction n generalizing j m m' with
  | zero => exact ⟨rfl, h⟩
  | succ n ih =>
    unfold shiftRun
    split
    · rename_i hj
      rw [h j hj]
      cases Memory.read .empty m j with
      | empty => exact ⟨rfl, h⟩
      | tombstone => exact ⟨rfl, h⟩
      | occupied k =>
        exact ih _ ((h.write hm hm' _ _).write (Memory.wf_write hm) (Memory.wf_write hm') _ _)
          (Memory.wf_write (Memory.wf_write hm)) (Memory.wf_write (Memory.wf_write hm'))
    · exact ⟨rfl, h⟩

/-- The scan passes a slot without a key: the gap grows. -/
theorem GapOpen.pass {start : Option Nat} (h : GapOpen m start i)
    (hi : (Memory.read .empty m i).isOccupied = false) : GapOpen m start (i + 1) := by
  rintro st rfl
  obtain ⟨hlt, hgap⟩ := h st rfl
  refine ⟨by omega, fun k hlo hhi => ?_⟩
  rcases Nat.lt_succ_iff_lt_or_eq.1 hhi with hk | rfl
  · exact hgap k hlo hk
  · exact hi

/-- The scan meets a Tombstone: it becomes Empty, and a gap starts there if none had begun. -/
theorem GapOpen.clear {start : Option Nat} (hm : Memory.wf .empty m) (h : GapOpen m start i) :
    GapOpen (Memory.write .empty m i .empty) (some (start.getD i)) (i + 1) := by
  rintro st ⟨⟩
  have hread : ∀ k, (k = i ∨ (Memory.read .empty m k).isOccupied = false) →
      (Memory.read .empty (Memory.write .empty m i .empty) k).isOccupied = false := by
    intro k hk
    rw [Memory.read_write hm.1]
    split
    · rfl
    · exact hk.resolve_left (Ne.symm ‹_›)
  cases start with
  | none => exact ⟨by simp, fun k hlo hhi => hread k (.inl (by simp at hlo; omega))⟩
  | some st =>
    obtain ⟨hlt, hgap⟩ := h st rfl
    refine ⟨by simp; omega, fun k hlo hhi => hread k ?_⟩
    rcases Nat.lt_succ_iff_lt_or_eq.1 hhi with hk | rfl
    · exact .inr (hgap k hlo hk)
    · exact .inl rfl

theorem gapOpen_none : GapOpen m none i := fun _ h => nomatch h

/-- Compaction keeps the number of Occupied slots (43_sequencer.md R711). -/
theorem compactFrom_occupied (n : Nat) {start : Option Nat} (hm : Memory.wf .empty m)
    (hgap : GapOpen m start i) :
    countSlots Slot.isOccupied (compactFrom c n i start m) c
      = countSlots Slot.isOccupied m c := by
  fun_induction compactFrom c n i start m with
  | case1 => rfl
  | case2 n i start m hi hk ih =>
    have hclear := countSlots_write Slot.isOccupied hm hi .empty
    rw [hk] at hclear
    exact (ih (Memory.wf_write hm) (hgap.clear hm)).trans hclear
  | case3 n i start m hi hk ih => exact ih hm (hgap.pass (by rw [hk]; rfl))
  | case4 n i m hi k hk ih => exact ih hm gapOpen_none
  | case5 n i m hi k hk st moved ih =>
    obtain ⟨hlt, hnone⟩ := hgap st rfl
    rw [ih (shiftRun_wf _ _ hm) gapOpen_none]
    refine shiftRun_occupied _ hm (by omega) (by omega) ?_
    rwa [Nat.sub_sub_self (Nat.le_of_lt hlt)]
  | case6 => rfl

/-- Compaction with enough turns leaves no Tombstone in the table (43_sequencer.md R711). -/
theorem compactFrom_noTombBelow (n : Nat) {start : Option Nat} (hm : Memory.wf .empty m)
    (h : NoTombBelow m i) (hn : c ≤ i + n) : NoTombBelow (compactFrom c n i start m) c := by
  have pass : ∀ {m : Memory Slot} {i : Nat}, NoTombBelow m i →
      Memory.read .empty m i ≠ .tombstone → NoTombBelow m (i + 1) := fun h hi k hk =>
    (Nat.lt_succ_iff_lt_or_eq.1 hk).elim (h k) (fun e => e ▸ hi)
  fun_induction compactFrom c n i start m with
  | case1 => exact fun k hk => h k (by omega)
  | case2 n i start m hi hk ih =>
    refine ih (Memory.wf_write hm) (pass (fun k hk => ?_) ?_) (by omega)
    · rw [Memory.read_write_other (by omega)]; exact h k hk
    · rw [Memory.read_write_same hm.1]; simp
  | case3 n i start m hi hk ih => exact ih hm (pass h (by rw [hk]; simp)) (by omega)
  | case4 n i m hi k hk ih => exact ih hm (pass h (by rw [hk]; simp)) (by omega)
  | case5 n i m hi k hk st moved ih =>
    refine ih (shiftRun_wf _ _ hm) (shiftRun_noTomb _ hm h) ?_
    obtain ⟨turns, hturns⟩ : ∃ t, c - i = t + 1 := ⟨c - i - 1, by omega⟩
    have hadv : i < moved.2 := by
      simp only [moved, hturns]
      exact shiftRun_advances hi hk
    omega
  | case6 => exact fun k hk => h k (by omega)

/-- Compaction looks at the slots of the table only. -/
theorem compactFrom_agree (n i : Nat) (start : Option Nat) (h : AgreeBelow c m m')
    (hm : Memory.wf .empty m) (hm' : Memory.wf .empty m') :
    AgreeBelow c (compactFrom c n i start m) (compactFrom c n i start m') := by
  induction n generalizing i start m m' with
  | zero => exact h
  | succ n ih =>
    unfold compactFrom
    split
    · rename_i hi
      rw [h i hi]
      cases Memory.read .empty m i with
      | empty => exact ih _ _ h hm hm'
      | tombstone =>
        exact ih _ _ (h.write hm hm' _ _) (Memory.wf_write hm) (Memory.wf_write hm')
      | occupied k =>
        cases start with
        | none => exact ih _ _ h hm hm'
        | some st =>
          obtain ⟨hnext, hrun⟩ := shiftRun_agree (size := i - st) (c - i) i h hm hm'
          dsimp only
          rw [hnext]
          exact ih _ _ hrun (shiftRun_wf _ _ hm) (shiftRun_wf _ _ hm')
    · exact h

/-- COMPACT keeps the number of Occupied slots and leaves no Tombstone (43_sequencer.md R711). -/
theorem compactBank_counts (hm : Memory.wf .empty m) :
    countSlots Slot.isOccupied (compactBank c m) c = countSlots Slot.isOccupied m c
      ∧ countSlots Slot.isTomb (compactBank c m) c = 0 := by
  refine ⟨compactFrom_occupied c hm gapOpen_none, countSlots_eq_zero_iff.2 fun i hi => ?_⟩
  rw [← Bool.not_eq_true, Slot.isTomb_iff]
  exact compactFrom_noTombBelow c hm (fun k hk => absurd hk (Nat.not_lt_zero k)) (by omega) i hi

end Compaction

end Sys2Proof.Machine
end

section
/-! SUPPORT. The rules of the invariant State.Sound, one for each operation that commands, register
transactions and edges are made of (10_state.md R110). -/

namespace Sys2Proof.Machine

variable {s t u : State}

/-! ### Storages -/

theorem storageLegal_bank (h : s.storageLegal) (b : BitVec 1) :
    Memory.wf .empty (s.bank b) ∧ ∀ e ∈ s.bank b, e.1 < s.capMax := by
  obtain ⟨-, -, hw0, hi0, hw1, hi1⟩ := h
  unfold State.bank
  split
  · exact ⟨hw0, hi0⟩
  · exact ⟨hw1, hi1⟩

theorem storageLegal_setBank (h : s.storageLegal) (b : BitVec 1) {m : Memory Slot}
    (hw : Memory.wf .empty m) (hi : ∀ e ∈ m, e.1 < s.capMax) : (s.setBank b m).storageLegal := by
  obtain ⟨hht, hhti, hw0, hi0, hw1, hi1⟩ := h
  unfold State.setBank
  split
  · exact ⟨hht, hhti, hw, hi, hw1, hi1⟩
  · exact ⟨hht, hhti, hw0, hi0, hw, hi⟩

theorem storageLegal_slotWrite (h : s.storageLegal) (b : BitVec 1) {i : Nat} (hi : i < s.capMax)
    (v : Slot) : (s.slotWrite b i v).storageLegal := by
  obtain ⟨hw, hb⟩ := storageLegal_bank h b
  refine storageLegal_setBank h b (Memory.wf_write hw) fun e he => ?_
  rcases Memory.mem_write he with hmem | ⟨rfl, -⟩
  · exact hb e hmem
  · exact hi

theorem storageLegal_compactTable (h : s.storageLegal) (hc : s.capacity.toNat ≤ s.capMax) :
    (compactTable s).storageLegal := by
  obtain ⟨hw, hb⟩ := storageLegal_bank h s.active
  refine storageLegal_setBank h _ (compactFrom_wf _ _ _ hw) fun e he => ?_
  rcases compactFrom_mem _ _ _ he with hmem | hlt
  · exact hb e hmem
  · omega

theorem storageLegal_tabWrite (h : s.storageLegal) (i : TableIndex) (d : Word64) :
    (s.tabWrite i d).storageLegal := by
  obtain ⟨hw, hi, hbanks⟩ := h
  refine ⟨Memory.wf_write hw, fun e he => ?_, hbanks⟩
  rcases Memory.mem_write he with hmem | ⟨rfl, -⟩
  · exact hi e hmem
  · exact i.isLt

/-! ### The table of a rebuild -/

/-- What `rebuild(N)` places in the inactive bank, and whether every key found a slot
(43_sequencer.md R707). -/
abbrev State.rebuiltBank (s : State) (N : Nat) : Memory Slot × Bool :=
  placeFrom s.hash64 s.table N s.capacity.toNat 0 (Memory.clearBelow N (s.bank (1 - s.active)))

/-- The state a rebuild commits (43_sequencer.md R707). -/
abbrev commitRebuild (N : Nat) (s : State) : State :=
  { s.setBank (1 - s.active) (s.rebuiltBank N).1 with
    active := 1 - s.active, capacity := BitVec.ofNat 32 N, removed := 0 }

theorem rebuild_eq (op : BitVec 2) (key : Word64) (N : Nat) (s : State) :
    rebuild op key N s =
      if (s.rebuiltBank N).2 then .done (commitRebuild N s) Events.none
      else .raised (raiseFault .shrinkOverflow op key
        (s.setBank (1 - s.active) (s.rebuiltBank N).1)) := rfl

theorem rebuiltBank_wf (h : s.storageLegal) (N : Nat) :
    Memory.wf .empty (s.rebuiltBank N).1 :=
  placeFrom_wf _ _ (Memory.wf_clearBelow (storageLegal_bank h _).1)

theorem storageLegal_rebuiltBank (h : s.storageLegal) {N : Nat} (hN : N ≤ s.capMax) :
    (s.setBank (1 - s.active) (s.rebuiltBank N).1).storageLegal := by
  refine storageLegal_setBank h _ (rebuiltBank_wf h N) fun e he => ?_
  rcases placeFrom_mem _ _ he with hmem | hlt
  · exact (storageLegal_bank h _).2 e (Memory.mem_clearBelow hmem)
  · omega

/-- A rebuild that ends has as many Occupied slots as the old table, and no Tombstone. -/
theorem rebuiltBank_counts (h : s.storageLegal) {N : Nat} :
    ((s.rebuiltBank N).2 = true →
      countSlots Slot.isOccupied (s.rebuiltBank N).1 N
        = countSlots Slot.isOccupied s.table s.capacity.toNat)
    ∧ countSlots Slot.isTomb (s.rebuiltBank N).1 N = 0 := by
  have hw : Memory.wf .empty (Memory.clearBelow N (s.bank (1 - s.active))) :=
    Memory.wf_clearBelow (storageLegal_bank h _).1
  constructor
  · intro hdone
    have hcount := placeFrom_occupied _ _ hw hdone
    rwa [countSlots_clearBelow rfl, countSlots_zero, Nat.zero_add, Nat.zero_add,
      Nat.add_zero] at hcount
  · rw [placeFrom_tombs _ _ hw, countSlots_clearBelow rfl]

/-- A rebuild with room for every key raises no fault (43_sequencer.md R708). -/
theorem rebuiltBank_succeeds (h : s.storageLegal) {N : Nat}
    (hroom : countSlots Slot.isOccupied s.table s.capacity.toNat ≤ N) :
    (s.rebuiltBank N).2 = true := by
  refine placeFrom_succeeds _ _ (Memory.wf_clearBelow (storageLegal_bank h _).1)
    (countSlots_clearBelow rfl _ _) ?_
  rwa [countSlots_clearBelow rfl, countSlots_zero, Nat.zero_add, Nat.zero_add, Nat.add_zero]

/-! ### What a table operation leaves alone -/

/-- `t` is `s` but for the banks, ACTIVE, CAPACITY and the two counters. -/
def SameButTable (s t : State) : Prop :=
  t = { s with bank0 := t.bank0, bank1 := t.bank1, active := t.active, capacity := t.capacity,
               filled := t.filled, removed := t.removed }

theorem SameButTable.refl (s : State) : SameButTable s s := rfl

theorem SameButTable.trans (h : SameButTable s t) (h' : SameButTable t u) : SameButTable s u := by
  unfold SameButTable at *
  rw [h', h]

theorem SameButTable.mode_eq (h : SameButTable s t) : t.mode = s.mode := by rw [h]

theorem SameButTable.rspPending_eq (h : SameButTable s t) : t.rspPending = s.rspPending := by
  rw [h]

theorem SameButTable.faultCause_eq (h : SameButTable s t) : t.faultCause = s.faultCause := by
  rw [h]

theorem sameButTable_setBank (s : State) (b : BitVec 1) (m : Memory Slot) :
    SameButTable s (s.setBank b m) := by
  unfold SameButTable State.setBank
  split <;> rfl

/-- The changes a command makes to the table's registers beside a bank. -/
theorem SameButTable.counters (h : SameButTable s t) (a : BitVec 1) (c f r : Word32) :
    SameButTable s { t with active := a, capacity := c, filled := f, removed := r } :=
  h.trans rfl

/-! ### The parts of the invariant -/

theorem State.Sound.buildLegal (h : s.Sound) : s.buildLegal := by
  obtain ⟨hbuild, -⟩ := h; exact hbuild

theorem State.Sound.storageLegal (h : s.Sound) : s.storageLegal := by
  obtain ⟨-, hstore, -⟩ := h; exact hstore

theorem State.Sound.dp_eq (h : s.Sound) : s.dp = Datapath.idle := by
  obtain ⟨-, -, hdp, -⟩ := h; exact hdp

theorem State.Sound.not_busy (h : s.Sound) : s.busy = false :=
  busy_eq_false_iff.2 (by rw [h.dp_eq]; rfl)

theorem State.Sound.configLegal (h : s.Sound) (hm : s.mode = .config) : s.configLegal := by
  obtain ⟨-, -, -, hconfig, -⟩ := h; exact hconfig hm

theorem State.Sound.startedLegal (h : s.Sound) (hm : s.mode ≠ .config) : s.startedLegal := by
  obtain ⟨-, -, -, -, hrun, -⟩ := h; exact (hrun hm).1

theorem State.Sound.tableLegal (h : s.Sound) (hm : s.mode ≠ .config) : s.tableLegal := by
  obtain ⟨-, -, -, -, hrun, -⟩ := h; exact (hrun hm).2

theorem State.Sound.faultLegal (h : s.Sound) : s.faultLegal := by
  obtain ⟨-, -, -, -, -, hfault, -⟩ := h; exact hfault

theorem State.Sound.responseLegal (h : s.Sound) : s.responseLegal := by
  obtain ⟨-, -, -, -, -, -, hrsp⟩ := h; exact hrsp

/-- Outside FAULT mode the fault record is clear (60_exceptions.md R900). -/
theorem State.Sound.noFault (h : s.Sound) (hm : s.mode ≠ .fault) :
    s.faultCause = .none ∧ s.faultOp = 0 ∧ s.faultKey = 0 := by
  obtain ⟨hclear, -⟩ := h.faultLegal; exact hclear hm

theorem tableLegal_capacity (h : s.tableLegal) :
    1 ≤ s.capacity.toNat ∧ s.capacity.toNat ≤ s.capMax := by
  obtain ⟨hc, -⟩ := h
  simpa [State.capacityInRange] using hc

theorem tableLegal_filled (h : s.tableLegal) :
    s.filled.toNat = countSlots Slot.isOccupied s.table s.capacity.toNat := by
  obtain ⟨-, hf, -⟩ := h; exact hf

theorem tableLegal_removed (h : s.tableLegal) :
    s.removed.toNat = countSlots Slot.isTomb s.table s.capacity.toNat := by
  obtain ⟨-, -, hr⟩ := h; exact hr

/-- FILLED + REMOVED is at most CAPACITY (10_state.md R110). -/
theorem tableLegal_counts_le (h : s.tableLegal) :
    s.filled.toNat + s.removed.toNat ≤ s.capacity.toNat := by
  have := countSlots_partition s.table s.capacity.toNat
  rw [tableLegal_filled h, tableLegal_removed h]
  omega

/-- A legal table, from what the active bank and the capacity are. -/
theorem tableLegal_intro {m : Memory Slot} {c : Nat} (hm : s.table = m)
    (hcap : s.capacity.toNat = c) (hone : 1 ≤ c) (hmax : c ≤ s.capMax)
    (hf : s.filled.toNat = countSlots Slot.isOccupied m c)
    (hr : s.removed.toNat = countSlots Slot.isTomb m c) : s.tableLegal := by
  subst hm hcap
  exact ⟨by simp [State.capacityInRange, hone, hmax], hf, hr⟩

/-! ### Soundness of table operations -/

/-- A change of the table keeps a state sound when it leaves the storages and the table legal. -/
theorem Sound_of_sameButTable (hs : s.Sound) (hm : s.mode ≠ .config) (hst : SameButTable s t)
    (hstore : t.storageLegal) (htab : t.tableLegal) : t.Sound := by
  obtain ⟨hbuild, -, hdp, -, hrun, hfault, hrsp⟩ := hs
  rw [hst] at hstore htab ⊢
  exact ⟨hbuild, hstore, hdp, fun h => absurd h hm, fun _ => ⟨(hrun hm).1, htab⟩, hfault, hrsp⟩

/-- The state after INSERT's slot write and count (42_commands.md R601). -/
abbrev insertSlot (p : Nat) (key : Word64) (s : State) : State :=
  { s.slotWrite s.active p (.occupied key) with filled := s.filled + 1 }

/-- The state after REMOVE's slot write and counts (42_commands.md R603). -/
abbrev removeSlot (p : Nat) (s : State) : State :=
  { s.slotWrite s.active p .tombstone with removed := s.removed + 1, filled := s.filled - 1 }

theorem sameButTable_insertSlot (p : Nat) (key : Word64) (s : State) :
    SameButTable s (insertSlot p key s) := (sameButTable_setBank s _ _).counters _ _ _ _

theorem sameButTable_removeSlot (p : Nat) (s : State) : SameButTable s (removeSlot p s) :=
  (sameButTable_setBank s _ _).counters _ _ _ _

theorem sameButTable_compactTable (s : State) : SameButTable s (compactTable s) :=
  (sameButTable_setBank s _ _).counters _ _ _ _

theorem sameButTable_commitRebuild (N : Nat) (s : State) : SameButTable s (commitRebuild N s) :=
  (sameButTable_setBank s _ _).counters _ _ _ _

/-- The active bank after a replacement of the active bank. -/
theorem table_setBank_active (s : State) (m : Memory Slot) :
    (s.setBank s.active m).table = m := by
  unfold State.table
  rw [setBank_active, bank_setBank_same]

/-- The active bank after a replacement of the inactive bank. -/
theorem table_setBank_inactive (s : State) (m : Memory Slot) :
    (s.setBank (1 - s.active) m).table = s.table := by
  unfold State.table
  rw [setBank_active, bank_setBank_other _ (one_sub_ne _)]

theorem table_commitRebuild (N : Nat) (s : State) :
    (commitRebuild N s).table = (s.rebuiltBank N).1 := bank_setBank_same _ _ _

theorem insertSlot_sound (hs : s.Sound) (hm : s.mode ≠ .config) {home p : Nat}
    (hp : (probeFree s.table home s.capacity.toNat).found = some p) (key : Word64) :
    (insertSlot p key s).Sound := by
  have hlt := probeFree_lt hp
  have htab := hs.tableLegal hm
  obtain ⟨hone, hmax⟩ := tableLegal_capacity htab
  obtain ⟨hocc, htomb⟩ := countSlots_place (storageLegal_bank hs.storageLegal s.active).1 hp key
  have hle := countSlots_le Slot.isOccupied (Memory.write .empty s.table p (.occupied key))
    s.capacity.toNat
  have hf := tableLegal_filled htab
  have hwidth := s.capacity.isLt
  refine Sound_of_sameButTable hs hm (sameButTable_insertSlot p key s)
    (storageLegal_slotWrite hs.storageLegal _ (by omega) _)
    (tableLegal_intro (table_setBank_active s _) (by simp) hone (by simpa using hmax) ?_ ?_)
  · rw [hocc, ← hf]
    rw [hocc, ← hf] at hle
    show (s.filled + 1).toNat = _
    rw [BitVec.toNat_add, Nat.mod_eq_of_lt (by simp; omega)]
    rfl
  · simpa [htomb] using tableLegal_removed htab

theorem removeSlot_sound (hs : s.Sound) (hm : s.mode ≠ .config) {home p : Nat} {stop : Bool}
    {key : Word64} (hp : (probeKey stop s.table home s.capacity.toNat key).found = some p) :
    (removeSlot p s).Sound := by
  have hlt := probeKey_lt hp
  have htab := hs.tableLegal hm
  obtain ⟨hone, hmax⟩ := tableLegal_capacity htab
  have hw := (storageLegal_bank hs.storageLegal s.active).1
  have hocc := countSlots_write Slot.isOccupied hw hlt .tombstone
  have htomb := countSlots_write Slot.isTomb hw hlt .tombstone
  rw [probeKey_reads_key hp] at hocc htomb
  simp only [Slot.isOccupied, Slot.isTomb, Bool.toNat_true, Bool.toNat_false] at hocc htomb
  have hle := countSlots_le Slot.isTomb (Memory.write .empty s.table p .tombstone)
    s.capacity.toNat
  have hf := tableLegal_filled htab
  have hr := tableLegal_removed htab
  have hwidth := s.capacity.isLt
  refine Sound_of_sameButTable hs hm (sameButTable_removeSlot p s)
    (storageLegal_slotWrite hs.storageLegal _ (by omega) _)
    (tableLegal_intro (table_setBank_active s _) (by simp) hone (by simpa using hmax) ?_ ?_)
  · show (s.filled - 1).toNat = _
    unfold State.table at *
    bv_omega
  · show (s.removed + 1).toNat = _
    unfold State.table at *
    bv_omega

theorem compactTable_sound (hs : s.Sound) (hm : s.mode ≠ .config) : (compactTable s).Sound := by
  have htab := hs.tableLegal hm
  obtain ⟨hone, hmax⟩ := tableLegal_capacity htab
  obtain ⟨hocc, htomb⟩ := compactBank_counts (c := s.capacity.toNat)
    (storageLegal_bank hs.storageLegal s.active).1
  refine Sound_of_sameButTable hs hm (sameButTable_compactTable s)
    (storageLegal_compactTable hs.storageLegal hmax)
    (tableLegal_intro (table_setBank_active s _) (by simp [compactTable]) hone
      (by simpa [compactTable] using hmax) ?_ htomb.symm)
  rw [hocc]
  simpa [compactTable] using tableLegal_filled htab

/-- The committed rebuild: the fresh bank is a legal table of the new capacity. -/
theorem commitRebuild_sound (hs : s.Sound) (hm : s.mode ≠ .config) {N : Nat} (hone : 1 ≤ N)
    (hmax : N ≤ s.capMax) (hdone : (s.rebuiltBank N).2 = true) : (commitRebuild N s).Sound := by
  obtain ⟨hocc, htomb⟩ := rebuiltBank_counts hs.storageLegal (N := N)
  obtain ⟨-, hlimit⟩ := hs.buildLegal
  unfold capacityLimit at hlimit
  have hcap : (BitVec.ofNat 32 N).toNat = N := by
    rw [BitVec.toNat_ofNat, Nat.mod_eq_of_lt (by omega)]
  refine Sound_of_sameButTable hs hm (sameButTable_commitRebuild N s)
    (storageLegal_rebuiltBank hs.storageLegal hmax)
    (tableLegal_intro (table_commitRebuild N s) hcap hone (by simpa using hmax) ?_ htomb.symm)
  rw [hocc hdone]
  simpa using tableLegal_filled (hs.tableLegal hm)

/-- The abandoned rebuild: the table is as it was, whatever the inactive bank holds now. -/
theorem abandonRebuild_sound (hs : s.Sound) (hm : s.mode ≠ .config) {N : Nat}
    (hmax : N ≤ s.capMax) : (s.setBank (1 - s.active) (s.rebuiltBank N).1).Sound := by
  have htab := hs.tableLegal hm
  obtain ⟨hone, hmax'⟩ := tableLegal_capacity htab
  refine Sound_of_sameButTable hs hm (sameButTable_setBank s _ _)
    (storageLegal_rebuiltBank hs.storageLegal hmax)
    (tableLegal_intro (table_setBank_inactive s _) (by simp) hone (by simpa using hmax') ?_ ?_)
  · simpa using tableLegal_filled htab
  · simpa using tableLegal_removed htab

/-! ### Soundness of faults and responses -/

/-- A fault whose op code is that of its cause (60_exceptions.md R900, R903). -/
def CauseFits (c : Cause) (op : BitVec 2) : Prop :=
  c ≠ .none ∧ (c = .probeFull → op = opInsert) ∧ (c = .growOverflow → op = opInsert)
    ∧ (c = .shrinkOverflow → op = opRemove)

theorem raiseFault_sound (hs : s.Sound) (hm : s.mode = .run) (hp : s.rspPending = false)
    {c : Cause} {op : BitVec 2} (hc : CauseFits c op) (key : Word64) :
    (raiseFault c op key s).Sound := by
  have hne : s.mode ≠ .config := by rw [hm]; simp
  obtain ⟨hnone, hfits⟩ := hc
  exact ⟨hs.buildLegal, hs.storageLegal, rfl, by simp,
    fun _ => ⟨hs.startedLegal hne, hs.tableLegal hne⟩,
    ⟨fun h => absurd rfl h, fun _ => ⟨hnone, hp⟩, hfits⟩, hs.responseLegal⟩

theorem respond_sound (hs : s.Sound) (hm : s.mode = .run) {r : Response}
    (hr : r.pos = notFoundPos ↔ r.status ≠ .ok) : (respond r s).Sound := by
  have hne : s.mode ≠ .config := by rw [hm]; simp
  have hnf : s.mode ≠ .fault := by rw [hm]; simp
  obtain ⟨hclear, -, hfits⟩ := hs.faultLegal
  exact ⟨hs.buildLegal, hs.storageLegal, rfl, fun h => absurd h hne,
    fun _ => ⟨hs.startedLegal hne, hs.tableLegal hne⟩,
    ⟨hclear, fun h => absurd h hnf, hfits⟩, fun _ => hr⟩

/-- A slot of a table is not the not-found sentinel (30_encoding.md R314). -/
theorem pos_ne_notFoundPos {p : Nat} (h : p < 2 ^ 31) : BitVec.ofNat 32 p ≠ notFoundPos := by
  intro he
  have := congrArg BitVec.toNat he
  rw [BitVec.toNat_ofNat, Nat.mod_eq_of_lt (by omega)] at this
  rw [this] at h
  exact absurd h (by decide)

end Sys2Proof.Machine
end

section
/-! SUPPORT. How the sequences after a slot write and the commands end, and that they keep a state
sound (42_commands.md R601 to R604, 43_sequencer.md R701 to R707). -/

namespace Sys2Proof.Machine

variable {s t : State}

/-! ### How a sequence and a command end -/

/-- A sequence run for the command `op key` from `s` ends with a changed table, or in a fault of its
own. -/
inductive SequenceEnds (op : BitVec 2) (key : Word64) (s : State) : Ran → Prop
  | done (t : State) (ev : Events) (h : SameButTable s t) : SequenceEnds op key s (.done t ev)
  | raised (c : Cause) (t : State) (h : SameButTable s t)
    (hc : c = .growOverflow ∨ c = .shrinkOverflow) :
    SequenceEnds op key s (.raised (raiseFault c op key t))

theorem SequenceEnds.of_sameButTable {op : BitVec 2} {key : Word64} {r : Ran}
    (h : SameButTable s t) (hr : SequenceEnds op key t r) : SequenceEnds op key s r := by
  cases hr with
  | done u ev hu => exact .done u ev (h.trans hu)
  | raised c u hu hc => exact .raised c u (h.trans hu) hc

theorem rebuild_ends (op : BitVec 2) (key : Word64) (N : Nat) (s : State) :
    SequenceEnds op key s (rebuild op key N s) := by
  rw [rebuild_eq]
  split
  · exact .done _ _ (sameButTable_commitRebuild N s)
  · exact .raised _ _ (sameButTable_setBank s _ _) (.inr rfl)

theorem growTable_ends (op : BitVec 2) (key : Word64) (s : State) :
    SequenceEnds op key s (growTable op key s) := by
  unfold growTable
  split
  · exact .raised _ _ (.refl s) (.inl rfl)
  · exact rebuild_ends op key _ s

theorem postInsert_ends (key : Word64) (s : State) :
    SequenceEnds opInsert key s (postInsert key s) := by
  have hgrow := growTable_ends opInsert key s
  rcases postInsert_cases key s with ⟨-, h⟩ | ⟨-, t, ev, hg, h⟩ | ⟨-, t, hg, h⟩
  · rw [h]; exact .done _ _ (.refl s)
  · rw [hg] at hgrow; rw [h]
    cases hgrow with | done _ _ ht => exact .done _ _ ht
  · rw [hg] at hgrow; rwa [h]

theorem shrinkIfLow_ends (key : Word64) (ev : Events) (s : State) :
    SequenceEnds opRemove key s (shrinkIfLow key ev s) := by
  have hshrink := rebuild_ends opRemove key (s.capacity.toNat / 2) s
  rw [← shrinkTable] at hshrink
  rcases shrinkIfLow_cases key ev s with ⟨-, h⟩ | ⟨-, -, t, e, hg, h⟩ | ⟨-, -, t, hg, h⟩
  · rw [h]; exact .done _ _ (.refl s)
  · rw [hg] at hshrink; rw [h]
    cases hshrink with | done _ _ ht => exact .done _ _ ht
  · rw [hg] at hshrink; rwa [h]

theorem postRemove_ends (key : Word64) (s : State) :
    SequenceEnds opRemove key s (postRemove key s) := by
  rcases postRemove_cases key s with ⟨-, h⟩ | ⟨-, h⟩
  · rw [h]; exact shrinkIfLow_ends key _ s
  · rw [h]; exact (shrinkIfLow_ends key _ _).of_sameButTable (sameButTable_compactTable s)

/-- A command `op key` run from `s` ends with a response or in a fault, its table changed before. -/
inductive CommandEnds (op : BitVec 2) (key : Word64) (s : State) : State → Prop
  | responds (r : Response) (t : State) (h : SameButTable s t) : CommandEnds op key s (respond r t)
  | faults (c : Cause) (t : State) (h : SameButTable s t) :
    CommandEnds op key s (raiseFault c op key t)

/-- A command's way on from a sequence: `f` answers when it is done, a fault stays. -/
def Ran.finish (f : State → Events → State) : Ran → State
  | .done t ev => f t ev
  | .raised t => t

theorem CommandEnds.of_sequence {op : BitVec 2} {key : Word64} {r : Ran}
    (h : SequenceEnds op key s r) (f : State → Events → Response) :
    CommandEnds op key s (r.finish fun t ev => respond (f t ev) t) := by
  cases h with
  | done t ev ht => exact .responds _ t ht
  | raised c t ht _ => exact .faults c t ht

/-- The OK response of an INSERT or REMOVE at slot `p`, begun in `s` and ended in `t` with events `ev`
(42_commands.md R601, R603). -/
def okResponse (op : BitVec 2) (key : Word64) (p : Nat) (s t : State) (ev : Events) : Response :=
  { op := op, status := .ok, ev := ev, pos := BitVec.ofNat 32 p,
    home := BitVec.ofNat 32 (s.homeOf key s.capacity.toNat), capAfter := t.capacity,
    hash := s.hash64 key, key := key }

/-- The insertion probe of a command (41_probe_cam.md R503). -/
abbrev State.freeSlot (s : State) (key : Word64) : Option Nat :=
  (probeFree s.table (s.homeOf key s.capacity.toNat) s.capacity.toNat).found

/-- The key probe of a command (41_probe_cam.md R504). -/
abbrev State.keySlot (s : State) (key : Word64) : Option Nat :=
  (probeKey s.lookupEmptyStop s.table (s.homeOf key s.capacity.toNat) s.capacity.toNat key).found

theorem runInsert_full {key : Word64} (h : s.freeSlot key = none) :
    runInsert key s = raiseFault .probeFull opInsert key s := by
  unfold State.freeSlot State.table at h
  unfold runInsert
  dsimp only
  rw [h]

theorem runInsert_writes {key : Word64} {p : Nat} (h : s.freeSlot key = some p) :
    runInsert key s = (postInsert key (insertSlot p key s)).finish
      fun t ev => respond (okResponse opInsert key p s t ev) t := by
  unfold State.freeSlot State.table at h
  unfold runInsert
  dsimp only
  rw [h]
  dsimp only
  cases postInsert key (insertSlot p key s) <;> rfl

theorem runRemove_absent {key : Word64} (h : s.keySlot key = none) :
    runRemove key s = respond (probeResponse opRemove key s) s := by
  unfold State.keySlot State.table at h
  unfold runRemove
  dsimp only
  rw [h]

theorem runRemove_writes {key : Word64} {p : Nat} (h : s.keySlot key = some p) :
    runRemove key s = (postRemove key (removeSlot p s)).finish
      fun t ev => respond (okResponse opRemove key p s t ev) t := by
  unfold State.keySlot State.table at h
  unfold runRemove
  dsimp only
  rw [h]
  dsimp only
  cases postRemove key (removeSlot p s) <;> rfl

theorem runInsert_ends (key : Word64) (s : State) :
    CommandEnds opInsert key s (runInsert key s) := by
  cases h : s.freeSlot key with
  | none => rw [runInsert_full h]; exact .faults _ _ (.refl s)
  | some p =>
    rw [runInsert_writes h]
    exact .of_sequence ((postInsert_ends key _).of_sameButTable (sameButTable_insertSlot p key s)) _

theorem runRemove_ends (key : Word64) (s : State) :
    CommandEnds opRemove key s (runRemove key s) := by
  cases h : s.keySlot key with
  | none => rw [runRemove_absent h]; exact .responds _ _ (.refl s)
  | some p =>
    rw [runRemove_writes h]
    exact .of_sequence ((postRemove_ends key _).of_sameButTable (sameButTable_removeSlot p s)) _

/-! ### Soundness of the sequences -/

/-- A rebuild to a legal capacity keeps a state sound: with room for every key it raises nothing, and
else its fault is that of a REMOVE's shrink (43_sequencer.md R707, 60_exceptions.md R900). -/
theorem rebuild_sound (hs : s.Sound) (hm : s.mode = .run) (hp : s.rspPending = false)
    {op : BitVec 2} {N : Nat} (hone : 1 ≤ N) (hmax : N ≤ s.capMax)
    (hop : op = opRemove ∨ (s.rebuiltBank N).2 = true) (key : Word64) :
    (rebuild op key N s).state.Sound := by
  have hne : s.mode ≠ .config := by rw [hm]; simp
  rw [rebuild_eq]
  split
  · exact commitRebuild_sound hs hne hone hmax ‹_›
  · have hremove := hop.resolve_right ‹_›
    exact raiseFault_sound (abandonRebuild_sound hs hne hmax) (by simpa using hm)
      (by simpa using hp) ⟨by simp, by simp, by simp, fun _ => hremove⟩ key

theorem growTable_sound (hs : s.Sound) (hm : s.mode = .run) (hp : s.rspPending = false)
    (key : Word64) : (growTable opInsert key s).state.Sound := by
  have hne : s.mode ≠ .config := by rw [hm]; simp
  obtain ⟨hone, -⟩ := tableLegal_capacity (hs.tableLegal hne)
  rcases Nat.lt_or_ge s.capMax (2 * s.capacity.toNat) with hover | hfits
  · rw [growTable_overflow hover]
    exact raiseFault_sound hs hm hp ⟨by simp, by simp, by simp, by simp⟩ key
  · rw [growTable_rebuilds hfits]
    have hcount := countSlots_le Slot.isOccupied s.table s.capacity.toNat
    exact rebuild_sound hs hm hp (by omega) hfits
      (.inr (rebuiltBank_succeeds hs.storageLegal (by omega))) key

theorem postInsert_sound (hs : s.Sound) (hm : s.mode = .run) (hp : s.rspPending = false)
    (key : Word64) : (postInsert key s).state.Sound := by
  have hgrow := growTable_sound hs hm hp key
  rcases postInsert_cases key s with ⟨-, h⟩ | ⟨-, t, ev, hg, h⟩ | ⟨-, t, hg, h⟩
  · rwa [h]
  · rw [h]; rwa [hg] at hgrow
  · rw [h]; rwa [hg] at hgrow

theorem shrinkIfLow_sound (hs : s.Sound) (hm : s.mode = .run) (hp : s.rspPending = false)
    (key : Word64) (ev : Events) : (shrinkIfLow key ev s).state.Sound := by
  have hne : s.mode ≠ .config := by rw [hm]; simp
  obtain ⟨-, hmax⟩ := tableLegal_capacity (hs.tableLegal hne)
  have hshrink (hlt : 1 < s.capacity.toNat) : (shrinkTable opRemove key s).state.Sound :=
    rebuild_sound hs hm hp (by omega) (by omega) (.inl rfl) key
  rcases shrinkIfLow_cases key ev s with ⟨-, h⟩ | ⟨-, hlt, t, e, hg, h⟩ | ⟨-, hlt, t, hg, h⟩
  · rwa [h]
  · have := hshrink hlt; rw [h]; rwa [hg] at this
  · have := hshrink hlt; rw [h]; rwa [hg] at this

theorem postRemove_sound (hs : s.Sound) (hm : s.mode = .run) (hp : s.rspPending = false)
    (key : Word64) : (postRemove key s).state.Sound := by
  have hne : s.mode ≠ .config := by rw [hm]; simp
  rcases postRemove_cases key s with ⟨-, h⟩ | ⟨-, h⟩
  · rw [h]; exact shrinkIfLow_sound hs hm hp key _
  · have hst := sameButTable_compactTable s
    rw [h]
    exact shrinkIfLow_sound (compactTable_sound hs hne) (hst.mode_eq.trans hm)
      (hst.rspPending_eq.trans hp) key _

/-! ### Soundness of the commands -/

/-- A sequence that ends sound, then a response at a slot of the table or the fault, is sound. -/
theorem finish_sound {op : BitVec 2} {key : Word64} {r : Ran} (hr : r.state.Sound)
    (hends : SequenceEnds op key s r) (hm : s.mode = .run) {p : Nat} (hp : p < 2 ^ 31) (b : State) :
    (r.finish fun t ev => respond (okResponse op key p b t ev) t).Sound := by
  cases hends with
  | done t ev ht =>
    refine respond_sound hr (ht.mode_eq.trans hm) ?_
    simp [okResponse, pos_ne_notFoundPos hp]
  | raised c t ht hc => exact hr

/-- A slot of a sound table is below 2^31 (00_scope.md R8). -/
theorem Sound_slot_lt (hs : s.Sound) (hm : s.mode ≠ .config) {p : Nat}
    (hp : p < s.capacity.toNat) : p < 2 ^ 31 := by
  obtain ⟨-, hmax⟩ := tableLegal_capacity (hs.tableLegal hm)
  obtain ⟨-, hlimit⟩ := hs.buildLegal
  unfold capacityLimit at hlimit
  omega

theorem runInsert_sound (hs : s.Sound) (hm : s.mode = .run) (hp : s.rspPending = false)
    (key : Word64) : (runInsert key s).Sound := by
  have hne : s.mode ≠ .config := by rw [hm]; simp
  cases h : s.freeSlot key with
  | none =>
    rw [runInsert_full h]
    exact raiseFault_sound hs hm hp ⟨by simp, by simp, by simp, by simp⟩ key
  | some p =>
    have hst := sameButTable_insertSlot p key s
    have hm' := hst.mode_eq.trans hm
    have hpost := postInsert_sound (insertSlot_sound hs hne h key) hm'
      (hst.rspPending_eq.trans hp) key
    rw [runInsert_writes h]
    exact finish_sound hpost (postInsert_ends key _) hm' (Sound_slot_lt hs hne (probeFree_lt h)) s

/-- The response of a key probe is at a slot of the table, or NOT_FOUND without one
(42_commands.md R602, R603). -/
theorem respond_probeResponse_sound (hs : s.Sound) (hm : s.mode = .run) (op : BitVec 2)
    (key : Word64) : (respond (probeResponse op key s) s).Sound := by
  have hne : s.mode ≠ .config := by rw [hm]; simp
  refine respond_sound hs hm ?_
  cases h : s.keySlot key with
  | none => simp [probeResponse, h]
  | some p => simp [probeResponse, h, pos_ne_notFoundPos (Sound_slot_lt hs hne (probeKey_lt h))]

theorem runRemove_sound (hs : s.Sound) (hm : s.mode = .run) (hp : s.rspPending = false)
    (key : Word64) : (runRemove key s).Sound := by
  have hne : s.mode ≠ .config := by rw [hm]; simp
  cases h : s.keySlot key with
  | none =>
    rw [runRemove_absent h]
    exact respond_probeResponse_sound hs hm _ key
  | some p =>
    have hst := sameButTable_removeSlot p s
    have hm' := hst.mode_eq.trans hm
    have hpost := postRemove_sound (removeSlot_sound hs hne h) hm'
      (hst.rspPending_eq.trans hp) key
    rw [runRemove_writes h]
    exact finish_sound hpost (postRemove_ends key _) hm' (Sound_slot_lt hs hne (probeKey_lt h)) s

theorem runReserved_sound (hs : s.Sound) (hm : s.mode = .run) (key : Word64) :
    (runReserved key s).Sound :=
  respond_sound hs hm (by simp [reservedResponse])

end Sys2Proof.Machine
end

section
/-! SUPPORT. What a register transaction, a command and an edge can do, said once each
(44_register_ops.md R800 to R809, 42_commands.md R600, 20_memory.md R210, R211), and that they keep a
state sound. -/

namespace Sys2Proof.Machine

variable {s t u : State}

/-! ### Register transactions -/

/-- `t` is `s` after a register transaction that is no CTRL action: the table and the modes stay, the
configuration and HTW too outside CONFIG mode (10_state.md R106, 60_exceptions.md R911). -/
def RegisterUpdate (s t : State) : Prop :=
  t = { s with initCapacity := t.initCapacity, growThr := t.growThr, shrinkThr := t.shrinkThr,
               ht := t.ht, htw := t.htw, htIndex := t.htIndex, slotIndex := t.slotIndex,
               reply := t.reply, freeCtr := t.freeCtr }
    ∧ (s.mode ≠ .config → t.initCapacity = s.initCapacity ∧ t.growThr = s.growThr
        ∧ t.shrinkThr = s.shrinkThr ∧ t.htw = s.htw)
    ∧ (s.storageLegal → t.storageLegal)

theorem registerUpdate_answer (s : State) (d : Word64) (e : Bool) :
    RegisterUpdate s (s.answer d e) := ⟨rfl, fun _ => ⟨rfl, rfl, rfl, rfl⟩, id⟩

theorem registerUpdate_refuse (s : State) : RegisterUpdate s s.refuse :=
  registerUpdate_answer s 0 true

/-- A configuration write that keeps the storages legal. -/
theorem registerUpdate_configWrite {run : State → State} (hb : s.busy = false)
    (hrun : s.mode = .config → RegisterUpdate s ((run s).answer 0 false))
    (h : onConfigWrite s run = .next t) : RegisterUpdate s t := by
  rw [onConfigWrite_idle hb] at h
  cases h
  split
  · exact hrun ‹_›
  · exact registerUpdate_refuse s

theorem registerUpdate_refusedWrite (hb : s.busy = false) (h : onRefusedWrite s = .next t) :
    RegisterUpdate s t := by
  rw [onRefusedWrite_idle hb] at h
  cases h
  exact registerUpdate_refuse s

/-- RD at an idle engine: the reply, and the count of free values where it gives one out
(44_register_ops.md R801); the model stops at a slot that does not exist (log entry 12). -/
theorem execRd_idle (hb : s.busy = false) (a : BitVec 8) (w : Word64) :
    execRd a w s = if s.readIsOutside a then .fault .slotOutOfBank else
      .next { s with reply := some (s.readRegister a),
                     freeCtr := if s.readIsFree a then s.freeCtr + 1 else s.freeCtr } := by
  rw [execRd, onRegisterPort_idle hb]
  cases s.readIsFree a <;> rfl

/-- The rows of the register port (30_encoding.md R315). -/
def isRegisterRow : Instr → Bool
  | .insert _ | .lookup _ | .remove _ | .cmdReserved _ => false
  | .hash _ | .probeFree _ _ _ | .probeKey _ _ _ | .grow | .shrink | .rebuild _ | .compact => false
  | .rd _ _ | .wrInitCapacity _ | .wrGrowThr _ | .wrShrinkThr _ | .wrHtIndex _ | .wrHtData _
  | .wrCtrl _ | .start | .softReset | .compactNow | .wrSlotIndex _ | .wrRefused01 _
  | .wrRefused02 _ _ | .wrRefused07 _ | .wrRefused08 _ _ | .wrRefused0A _ | .wrRefused0E _ _
  | .wrRefused10 _ _ | .wrRefused20 _ _ | .wrRefused40 _ _ | .wrRefused80 _ _ => true

/-- What the register port decodes is one of its rows. -/
theorem decodeReg_isRegisterRow (w : RegWord) : isRegisterRow (decodeReg w) = true := by
  unfold decodeReg
  dsimp only
  split
  · unfold decodeWrite decodeCtrl
    repeat' split
    all_goals rfl
  · rfl

/-- What a register transaction at an idle engine can do: an update of registers, START, SOFT_RESET
or COMPACT_NOW. -/
inductive RegisterEffect (i : Instr) (s : State) : State → Prop
  | update (t : State) (h : RegisterUpdate s t) : RegisterEffect i s t
  | start (hi : i = .start) (h : s.startLegal = true) :
    RegisterEffect i s ((startTable s).answer 0 false)
  | softReset (hi : i = .softReset) : RegisterEffect i s ((softReset s).answer 0 false)
  | compactNow (hm : s.mode = .run) : RegisterEffect i s ((compactTable s).answer 0 false)

theorem execStart_effect (hb : s.busy = false) (h : execStart s = .next t) :
    RegisterEffect .start s t := by
  rw [execStart, onRegisterPort_idle hb] at h
  cases h
  split
  · exact .start rfl ‹_›
  · exact .update _ (registerUpdate_refuse s)

theorem execCompactNow_effect (hb : s.busy = false) (h : execCompactNow s = .next t) :
    RegisterEffect .compactNow s t := by
  rw [execCompactNow, onRegisterPort_idle hb] at h
  split at h
  · split at h
    · cases h; exact .compactNow ‹_›
    · cases h
  · cases h; exact .update _ (registerUpdate_refuse s)

/-- Every row of the register port has one of these effects. -/
theorem exec_register_effect {i : Instr} (hi : isRegisterRow i = true) (hb : s.busy = false)
    (h : exec i s = .next t) : RegisterEffect i s t := by
  have locked {P : Prop} (hm : s.mode = .config) : s.mode ≠ .config → P := fun hne => absurd hm hne
  cases i with
  | insert _ | lookup _ | remove _ | cmdReserved _ | hash _ | probeFree _ _ _ | probeKey _ _ _
  | grow | shrink | rebuild _ | compact => cases hi
  | rd a w =>
    rw [exec, execRd_idle hb] at h
    split at h
    · cases h
    · cases h; exact .update _ ⟨rfl, fun _ => ⟨rfl, rfl, rfl, rfl⟩, id⟩
  | wrInitCapacity d | wrGrowThr d | wrShrinkThr d | wrHtIndex d =>
    simp only [exec, execWrInitCapacity, execWrGrowThr, execWrShrinkThr, execWrHtIndex] at h
    exact .update _ (registerUpdate_configWrite hb (fun hm => ⟨rfl, locked hm, id⟩) h)
  | wrHtData d =>
    simp only [exec, execWrHtData] at h
    refine .update _ (registerUpdate_configWrite hb (fun hm => ?_) h)
    exact ⟨rfl, locked hm, fun hst => storageLegal_tabWrite hst s.htIndex d⟩
  | wrCtrl d =>
    rw [exec, execWrCtrl, onRegisterPort_idle hb] at h
    cases h
    split
    · exact .update _ (registerUpdate_answer s _ _)
    · exact .update _ (registerUpdate_refuse s)
  | start => exact execStart_effect hb h
  | softReset =>
    rw [exec, execSoftReset, onRegisterPort_idle hb] at h
    cases h
    exact .softReset rfl
  | compactNow => exact execCompactNow_effect hb h
  | wrSlotIndex d =>
    rw [exec, execWrSlotIndex, onRegisterPort_idle hb] at h
    cases h
    exact .update _ ⟨rfl, fun _ => ⟨rfl, rfl, rfl, rfl⟩, id⟩
  | wrRefused01 _ | wrRefused02 _ _ | wrRefused07 _ | wrRefused08 _ _ | wrRefused0A _
  | wrRefused0E _ _ | wrRefused10 _ _ | wrRefused20 _ _ | wrRefused40 _ _ | wrRefused80 _ _ =>
    exact .update _ (registerUpdate_refusedWrite hb h)

/-! ### Commands -/

theorem onCommandPort_next {run : State → State} (h : onCommandPort s run = .next t) :
    t = s ∨ (s.acceptsCommand = true ∧ t = run s) := by
  rcases onCommandPort_cases s run with ⟨-, e⟩ | ⟨ha, -, e⟩ | ⟨-, -, e⟩
  · rw [e] at h; cases h; exact .inl rfl
  · rw [e] at h; cases h; exact .inr ⟨ha, rfl⟩
  · rw [e] at h; cases h

/-- What a word at the command port can do: nothing, or in RUN mode with no response pending the run
of its command (42_commands.md R600). -/
inductive CommandEffect (i : Instr) (s : State) : State → Prop
  | waits : CommandEffect i s s
  | insert (key : Word64) (hi : i = .insert key) (hm : s.mode = .run) (hp : s.rspPending = false) :
    CommandEffect i s (runInsert key s)
  | lookup (key : Word64) (hm : s.mode = .run) : CommandEffect i s (runLookup key s)
  | remove (key : Word64) (hi : i = .remove key) (hm : s.mode = .run) (hp : s.rspPending = false) :
    CommandEffect i s (runRemove key s)
  | reserved (key : Word64) (hm : s.mode = .run) : CommandEffect i s (runReserved key s)

theorem exec_command_effect {w : CmdWord} (h : exec (decodeCmd w) s = .next t) :
    CommandEffect (decodeCmd w) s t := by
  obtain ⟨key, hi | hi | hi | hi⟩ := decodeCmd_cases w
  all_goals
    rw [hi] at h ⊢
    obtain rfl | ⟨ha, rfl⟩ := onCommandPort_next h
    · exact .waits
    obtain ⟨hm, -, hp⟩ := acceptsCommand_iff.1 ha
  · exact .insert key rfl hm hp
  · exact .lookup key hm
  · exact .remove key rfl hm hp
  · exact .reserved key hm

/-! ### Edges -/

/-- The state a register transaction of this edge starts from: the edge has passed, and a response may
have transferred before (log entry 9). -/
inductive EdgeStart (s : State) : State → Prop
  | alone : EdgeStart s s.advance
  | beforeHandOver : EdgeStart s s.advance.nextFree
  | afterHandOver : EdgeStart s (handOver s.advance.nextFree)

/-- What an edge at an idle engine can do (20_memory.md R210, R211). -/
inductive EdgeEffect (s : State) : State → Prop
  | reset (h : s.pins.rst = true) : EdgeEffect s (hardwareReset s.advance)
  | register (w : RegWord) (u v : State) (hw : s.pins.reg = some w) (hu : EdgeStart s u)
    (h : exec (decodeReg w) u = .next v) : EdgeEffect s v
  | registerThenHandOver (w : RegWord) (u v : State) (hw : s.pins.reg = some w)
    (hu : EdgeStart s u) (h : exec (decodeReg w) u = .next v) : EdgeEffect s (handOver v)
  | handOver : EdgeEffect s (handOver s.advance)
  | command (w : CmdWord) (t : State) (hr : s.pins.reg = none) (hw : s.pins.cmd = some w)
    (h : exec (decodeCmd w) s.advance = .next t) : EdgeEffect s t
  | nothing : EdgeEffect s s.advance

theorem andThen_next {r : Answer} {f : State → State} (h : andThen r f = .next t) :
    ∃ v, r = .next v ∧ t = f v := by
  cases r with
  | next v => cases h; exact ⟨v, rfl, rfl⟩
  | fault e => cases h
  | refused e => cases h

theorem step_effect (hb : s.busy = false) (h : step s = .next t) : EdgeEffect s t := by
  cases hrst : s.pins.rst with
  | true =>
    rw [step_reset hrst] at h
    cases h
    exact .reset hrst
  | false =>
    cases hreg : s.pins.reg with
    | some w =>
      cases hresp : s.transfersResponse with
      | false =>
        rw [step_register hrst hb hreg hresp] at h
        exact .register w _ t hreg .alone h
      | true =>
        rcases step_register_handOver hrst hb hreg hresp with e | e
        · rw [e] at h
          exact .register w _ t hreg .afterHandOver h
        · rw [e] at h
          obtain ⟨v, hv, rfl⟩ := andThen_next h
          exact .registerThenHandOver w _ v hreg .beforeHandOver hv
    | none =>
      cases hresp : s.transfersResponse with
      | true =>
        rw [step_handOver hrst hb hreg hresp] at h
        cases h
        exact .handOver
      | false =>
        cases hcmd : s.pins.cmd with
        | some w =>
          rw [step_command hrst hb hreg hresp hcmd] at h
          exact .command w t hreg hcmd h
        | none =>
          rw [step_nothing hrst hb hreg hresp hcmd] at h
          cases h
          exact .nothing

/-! ### Soundness -/

theorem registerUpdate_sound (hs : s.Sound) (h : RegisterUpdate s t) : t.Sound := by
  obtain ⟨he, hlocked, hstore⟩ := h
  have hstarted (hm : s.mode ≠ .config) : t.startedLegal := by
    obtain ⟨hinit, hgrow, hshrink, htw⟩ := hlocked hm
    have hcap : t.capMax = s.capMax := by rw [he]
    unfold State.startedLegal State.tablesComplete
    rw [hinit, hgrow, hshrink, htw, hcap]
    exact hs.startedLegal hm
  have hstored := hstore hs.storageLegal
  rw [he] at hstarted hstored ⊢
  exact ⟨hs.buildLegal, hstored, hs.dp_eq, hs.configLegal,
    fun hm => ⟨hstarted hm, hs.tableLegal hm⟩, hs.faultLegal, hs.responseLegal⟩

/-- The fault record and the pending response, empty. -/
theorem faultLegal_of_clear (hm : s.mode ≠ .fault) (hc : s.faultCause = .none)
    (ho : s.faultOp = 0) (hk : s.faultKey = 0) : s.faultLegal :=
  ⟨fun _ => ⟨hc, ho, hk⟩, fun h => absurd h hm, by simp [hc], by simp [hc], by simp [hc]⟩

theorem softReset_sound (hs : s.Sound) : (softReset s).Sound :=
  ⟨hs.buildLegal, hs.storageLegal, hs.dp_eq, fun _ => ⟨rfl, rfl, rfl, rfl, rfl⟩,
    fun h => absurd rfl h, faultLegal_of_clear (by simp) rfl rfl rfl, fun h => by cases h⟩

theorem hardwareReset_sound (hs : s.Sound) : (hardwareReset s).Sound :=
  ⟨hs.buildLegal, hs.storageLegal, rfl, fun _ => ⟨rfl, rfl, rfl, rfl, rfl⟩,
    fun h => absurd rfl h, faultLegal_of_clear (by simp [hardwareReset]) rfl rfl rfl,
    fun h => by cases h⟩

theorem startLegal_iff : s.startLegal = true ↔ s.mode = .config ∧ s.startedLegal := by
  simp only [State.startLegal, State.startedLegal, Bool.and_eq_true, beq_iff_eq, decide_eq_true_eq]
  tauto

theorem startTable_sound (hs : s.Sound) (h : s.startLegal = true) : (startTable s).Sound := by
  obtain ⟨hm, hstarted⟩ := startLegal_iff.1 h
  obtain ⟨hcause, hop, hkey⟩ := hs.noFault (by rw [hm]; simp)
  obtain ⟨hht, hhti, hw0, hi0, hbank1⟩ := hs.storageLegal
  obtain ⟨-, hone, hmax, -⟩ := id hstarted
  refine ⟨hs.buildLegal, ⟨hht, hhti, Memory.wf_clearBelow hw0,
    fun e he => hi0 e (Memory.mem_clearBelow he), hbank1⟩, hs.dp_eq, by simp,
    fun _ => ⟨hstarted, tableLegal_intro rfl rfl hone hmax ?_ ?_⟩,
    faultLegal_of_clear (by simp) hcause hop hkey, hs.responseLegal⟩
  · exact (countSlots_clearBelow rfl _ _).symm
  · exact (countSlots_clearBelow rfl _ _).symm

theorem answer_sound (hs : s.Sound) (d : Word64) (e : Bool) : (s.answer d e).Sound :=
  registerUpdate_sound hs (registerUpdate_answer s d e)

theorem registerEffect_sound {i : Instr} (hs : s.Sound) (h : RegisterEffect i s t) : t.Sound := by
  cases h with
  | update _ h => exact registerUpdate_sound hs h
  | start _ h => exact answer_sound (startTable_sound hs h) _ _
  | softReset _ => exact answer_sound (softReset_sound hs) _ _
  | compactNow hm => exact answer_sound (compactTable_sound hs (by rw [hm]; simp)) _ _

theorem commandEffect_sound {i : Instr} (hs : s.Sound) (h : CommandEffect i s t) : t.Sound := by
  cases h with
  | waits => exact hs
  | insert key _ hm hp => exact runInsert_sound hs hm hp key
  | lookup key hm => exact respond_probeResponse_sound hs hm _ key
  | remove key _ hm hp => exact runRemove_sound hs hm hp key
  | reserved key hm => exact runReserved_sound hs hm key

theorem advance_sound (hs : s.Sound) : s.advance.Sound := hs

theorem nextFree_sound (hs : s.Sound) : s.nextFree.Sound := hs

theorem handOver_sound (hs : s.Sound) : (handOver s).Sound := by
  obtain ⟨hclear, hset, hfits⟩ := hs.faultLegal
  have hconfig (hm : s.mode = .config) : (handOver s).configLegal := by
    obtain ⟨hcap, hf, hr, ha, -⟩ := hs.configLegal hm
    exact ⟨hcap, hf, hr, ha, rfl⟩
  exact ⟨hs.buildLegal, hs.storageLegal, hs.dp_eq, hconfig,
    fun hm => ⟨hs.startedLegal hm, hs.tableLegal hm⟩,
    ⟨hclear, fun hm => ⟨(hset hm).1, rfl⟩, hfits⟩, fun h => by cases h⟩

theorem edgeStart_sound (hs : s.Sound) (h : EdgeStart s u) : u.Sound := by
  cases h with
  | alone => exact hs
  | beforeHandOver => exact hs
  | afterHandOver => exact handOver_sound (nextFree_sound (advance_sound hs))

theorem registerTransaction_sound {w : RegWord} (hs : s.Sound)
    (h : exec (decodeReg w) s = .next t) : t.Sound :=
  registerEffect_sound hs (exec_register_effect (decodeReg_isRegisterRow w) hs.not_busy h)

theorem edgeEffect_sound (hs : s.Sound) (h : EdgeEffect s t) : t.Sound := by
  cases h with
  | reset _ => exact hardwareReset_sound (advance_sound hs)
  | register w u v _ hu hexec => exact registerTransaction_sound (edgeStart_sound hs hu) hexec
  | registerThenHandOver w u v _ hu hexec =>
    exact handOver_sound (registerTransaction_sound (edgeStart_sound hs hu) hexec)
  | handOver => exact handOver_sound (advance_sound hs)
  | command w t _ _ hexec =>
    exact commandEffect_sound (advance_sound hs) (exec_command_effect hexec)
  | nothing => exact advance_sound hs

/-- Settles O4: an edge at an idle engine is made of operations that each keep the invariant. -/
theorem stepKeepsSound : Obligations.StepKeepsSound :=
  fun _ _ hs h => edgeEffect_sound hs (step_effect hs.not_busy h)

end Sys2Proof.Machine
end

section
/-! The statements on reset, on MODE, on PROBE_FULL and on an unwritten table entry. -/

namespace Sys2Proof.Machine

variable {s t u : State}

/-! ### Reset -/

/-- Settles O1: each value is the one State.reset lists, or an output computed from them. -/
theorem resetHasTheStatedValues : Obligations.ResetHasTheStatedValues := by
  unfold Obligations.ResetHasTheStatedValues
  and_intros <;> rfl

/-- CAP_MAX is one more than a number of 31 bits (00_scope.md R8). -/
theorem reset_buildLegal : State.reset.buildLegal := by
  have hlt := Config.capMaxPred.isLt
  exact ⟨Nat.le_add_left 1 _, hlt⟩

/-- Settles O3: reset is CONFIG mode with empty storages, no fault and no response. -/
theorem resetIsSound : Obligations.ResetIsSound :=
  ⟨reset_buildLegal, by decide, rfl, fun _ => ⟨rfl, rfl, rfl, rfl, rfl⟩, fun h => absurd rfl h,
    faultLegal_of_clear (by decide) rfl rfl rfl, fun h => by cases h⟩

/-! ### MODE -/

theorem edgeStart_mode (h : EdgeStart s u) : u.mode = s.mode := by cases h <;> rfl

theorem edgeStart_busy (h : EdgeStart s u) : u.busy = s.busy := by cases h <;> rfl

/-- Of the register transactions only START and SOFT_RESET change MODE (10_state.md R102). -/
theorem registerEffect_mode {i : Instr} (h : RegisterEffect i s t) :
    t.mode = s.mode ∨ (i = .start ∧ s.mode = .config ∧ t.mode = .run)
      ∨ (i = .softReset ∧ t.mode = .config) := by
  cases h with
  | update _ h => obtain ⟨he, -⟩ := h; rw [he]; exact .inl rfl
  | start hi h => exact .inr (.inl ⟨hi, (startLegal_iff.1 h).1, rfl⟩)
  | softReset hi => exact .inr (.inr ⟨hi, rfl⟩)
  | compactNow _ => exact .inl (sameButTable_compactTable s).mode_eq

/-- A command stays in its mode or ends in FAULT (60_exceptions.md R903). -/
theorem commandEnds_mode {op : BitVec 2} {key : Word64} (h : CommandEnds op key s t) :
    t.mode = s.mode ∨ t.mode = .fault := by
  cases h with
  | responds r u hu => exact .inl hu.mode_eq
  | faults c u _ => exact .inr rfl

/-- Of the commands only INSERT and REMOVE change MODE, from RUN to FAULT (10_state.md R102). -/
theorem commandEffect_mode {i : Instr} (h : CommandEffect i s t) :
    t.mode = s.mode
      ∨ (s.mode = .run ∧ t.mode = .fault ∧ ∃ k, i = .insert k ∨ i = .remove k) := by
  cases h with
  | waits | lookup _ _ | reserved _ _ => exact .inl rfl
  | insert key hi hm _ =>
    exact (commandEnds_mode (runInsert_ends key s)).imp_right fun h => ⟨hm, h, key, .inl hi⟩
  | remove key hi hm _ =>
    exact (commandEnds_mode (runRemove_ends key s)).imp_right fun h => ⟨hm, h, key, .inr hi⟩

/-- The two ways a register transaction of an edge changes MODE. -/
theorem registerEdge_mode {w : RegWord} (hb : s.busy = false) (hu : EdgeStart s u)
    (h : exec (decodeReg w) u = .next t) :
    t.mode = s.mode ∨ (decodeReg w = .start ∧ s.mode = .config ∧ t.mode = .run)
      ∨ (decodeReg w = .softReset ∧ t.mode = .config) := by
  have heffect := exec_register_effect (decodeReg_isRegisterRow w)
    ((edgeStart_busy hu).trans hb) h
  rw [← edgeStart_mode hu]
  exact registerEffect_mode heffect

/-- Settles O8: of all an edge at an idle engine can do, four effects change MODE. -/
theorem modeChangesOnlyAsListed : Obligations.ModeChangesOnlyAsListed := by
  intro s t hidle h hne
  have hb := busy_eq_false_iff.2 hidle
  have register {w : RegWord} (hw : s.pins.reg = some w)
      (hmode : t.mode = s.mode ∨ (decodeReg w = .start ∧ s.mode = .config ∧ t.mode = .run)
        ∨ (decodeReg w = .softReset ∧ t.mode = .config)) :
      (s.mode = .config ∧ t.mode = .run ∧ ∃ w, s.pins.reg = some w ∧ decode (.reg w) = .start)
        ∨ (t.mode = .config ∧ ∃ w, s.pins.reg = some w ∧ decode (.reg w) = .softReset) := by
    rcases hmode with hsame | ⟨hi, hs, ht⟩ | ⟨hi, ht⟩
    · exact absurd hsame hne
    · exact .inl ⟨hs, ht, w, hw, hi⟩
    · exact .inr ⟨ht, w, hw, hi⟩
  cases step_effect hb h with
  | reset hrst => exact .inl ⟨hrst, rfl⟩
  | register w u _ hw hu hexec =>
    exact .inr ((register hw (registerEdge_mode hb hu hexec)).imp_right .inl)
  | registerThenHandOver w u v hw hu hexec =>
    exact .inr ((register hw (registerEdge_mode (t := v) hb hu hexec)).imp_right .inl)
  | handOver => exact absurd rfl hne
  | command w _ hreg hw hexec =>
    rcases commandEffect_mode (exec_command_effect hexec) with hsame | ⟨hm, hf, k, hi⟩
    · exact absurd hsame hne
    · exact .inr (.inr (.inr ⟨hm, hf, w, k, hreg, hw, hi⟩))
  | nothing => exact absurd rfl hne

/-! ### PROBE_FULL -/

/-- An accepting state accepts a command, at a capacity in range (30_encoding.md R302). -/
theorem accepting_runs (h : s.Accepting) (run : State → State) :
    onCommandPort s run = .next (run s) := by
  obtain ⟨hm, hp, hidle, hone, hmax⟩ := h
  exact onCommandPort_runs (acceptsCommand_iff.2 ⟨hm, hidle, hp⟩)
    (by simp [State.capacityInRange, hone, hmax])

/-- The sequences after a slot write raise no PROBE_FULL (60_exceptions.md R900). -/
theorem finish_faultCause {op : BitVec 2} {key : Word64} {r : Ran} (h : SequenceEnds op key s r)
    (hs : s.faultCause ≠ .probeFull) (f : State → Events → Response) :
    (r.finish fun t ev => respond (f t ev) t).faultCause ≠ .probeFull := by
  cases h with
  | done t ev ht => exact ht.faultCause_eq ▸ hs
  | raised c t ht hc => rcases hc with rfl | rfl <;> simp [Ran.finish]

/-- INSERT raises PROBE_FULL exactly when its probe finds no slot (42_commands.md R601). -/
theorem runInsert_probeFull_iff (hs : s.faultCause ≠ .probeFull) (key : Word64) :
    (runInsert key s).faultCause = .probeFull ↔ s.freeSlot key = none := by
  cases h : s.freeSlot key with
  | none => simp [runInsert_full h]
  | some p =>
    have hends := (postInsert_ends key _).of_sameButTable (sameButTable_insertSlot p key s)
    rw [runInsert_writes h]
    simpa using finish_faultCause hends hs _

/-- Settles O30: the probe fails exactly when Occupied slots and Tombstones, which FILLED and REMOVED
count, fill the table. -/
theorem probeFullExactlyWhenTheCountsFillTheTable :
    Obligations.ProbeFullExactlyWhenTheCountsFillTheTable := by
  intro k s hs ha
  obtain ⟨hrun, -⟩ := id ha
  have htab := hs.tableLegal (by rw [hrun]; simp)
  obtain ⟨hcause, -⟩ := hs.noFault (by rw [hrun]; simp)
  refine ⟨tableLegal_counts_le htab, fun t h => ?_⟩
  rw [exec, execInsert, accepting_runs ha] at h
  cases h
  rw [runInsert_probeFull_iff (by rw [hcause]; simp), probeFree_none_iff_counts,
    tableLegal_filled htab, tableLegal_removed htab]

/-! ### A table entry never written -/

/-- Settles O47: the value read is the free value `State.tabRead` gives there. -/
theorem unwrittenEntryReadsSomeValue : Obligations.UnwrittenEntryReadsSomeValue := by
  intro w s hidle hunwritten
  have houtside : s.readIsOutside 0x0C = false := by simp [State.readIsOutside]
  have hfree : s.readIsFree 0x0C = true := by simp [State.readIsFree, State.htWritten, hunwritten]
  refine ⟨s.tabRead s.htIndex, ?_⟩
  rw [exec, execRd_idle (busy_eq_false_iff.2 hidle), houtside, hfree]
  rfl

end Sys2Proof.Machine
end

section
/-! SUPPORT. Two states with the same view, equal but for slots outside the table, stay so under every
operation of the ports (10_state.md R108, 70_reset_and_hazards.md R1002). -/

namespace Sys2Proof.Machine

variable {s t : State}

/-! ### States with the same view -/

/-- Two states equal but for the banks, with the same table, their banks in canonical form. -/
structure Twins (s t : State) : Prop where
  banks : ∃ b0 b1, t = { s with bank0 := b0, bank1 := b1 }
  table : AgreeBelow s.capacity.toNat s.table t.table
  wf_left : ∀ b, Memory.wf .empty (s.bank b)
  wf_right : ∀ b, Memory.wf .empty (t.bank b)

theorem Twins.sameView (h : Twins s t) : SameView s t := by
  obtain ⟨⟨b0, b1, rfl⟩, htable, -, -⟩ := h
  exact ⟨rfl, htable⟩

theorem Twins.of_sound (hs : s.Sound) (ht : t.Sound) (h : SameView s t) : Twins s t := by
  obtain ⟨he, htable⟩ := h
  exact ⟨⟨t.bank0, t.bank1, he⟩, htable, fun b => (storageLegal_bank hs.storageLegal b).1,
    fun b => (storageLegal_bank ht.storageLegal b).1⟩

/-- What does not look at the banks is the same in both. -/
theorem Twins.eq_of_blind {α : Type} (h : Twins s t) (f : State → α)
    (hf : ∀ u b0 b1, f { u with bank0 := b0, bank1 := b1 } = f u) : f t = f s := by
  obtain ⟨⟨b0, b1, rfl⟩, -, -, -⟩ := h
  exact hf s b0 b1

theorem Twins.active_eq (h : Twins s t) : t.active = s.active :=
  h.eq_of_blind State.active fun _ _ _ => rfl

theorem Twins.capacity_eq (h : Twins s t) : t.capacity = s.capacity :=
  h.eq_of_blind State.capacity fun _ _ _ => rfl

theorem Twins.busy_eq (h : Twins s t) : t.busy = s.busy :=
  h.eq_of_blind State.busy fun _ _ _ => rfl

theorem Twins.mode_eq (h : Twins s t) : t.mode = s.mode :=
  h.eq_of_blind State.mode fun _ _ _ => rfl

/-- No output looks at a bank (30_encoding.md R300). -/
theorem Twins.outputs_eq (h : Twins s t) : t.outputs = s.outputs :=
  h.eq_of_blind State.outputs fun _ _ _ => rfl

/-- A change of the state that neither reads nor writes the banks, nor what says where the
table is. -/
def KeepsTable (f : State → State) : Prop :=
  ∀ s, (f s).active = s.active ∧ (f s).capacity = s.capacity
    ∧ ∀ b0 b1, f { s with bank0 := b0, bank1 := b1 } = { f s with bank0 := b0, bank1 := b1 }

theorem KeepsTable.bank_eq {f : State → State} (hf : KeepsTable f) (s : State) (b : BitVec 1) :
    (f s).bank b = s.bank b := by
  obtain ⟨-, -, hbanks⟩ := hf s
  have he : f s = { f s with bank0 := s.bank0, bank1 := s.bank1 } := hbanks s.bank0 s.bank1
  rw [he]
  rfl

theorem Twins.map {f : State → State} (h : Twins s t) (hf : KeepsTable f) :
    Twins (f s) (f t) := by
  obtain ⟨hbanks, htable, hw, hw'⟩ := h
  refine ⟨?_, ?_, fun b => ?_, fun b => ?_⟩
  · obtain ⟨b0, b1, rfl⟩ := hbanks
    obtain ⟨-, -, hcommutes⟩ := hf s
    exact ⟨b0, b1, hcommutes b0 b1⟩
  · obtain ⟨hact, hcap, -⟩ := hf s
    obtain ⟨hact', -, -⟩ := hf t
    rwa [State.table, State.table, hact, hact', hcap, hf.bank_eq, hf.bank_eq]
  · rw [hf.bank_eq]; exact hw b
  · rw [hf.bank_eq]; exact hw' b

theorem keepsTable_raiseFault (c : Cause) (op : BitVec 2) (key : Word64) :
    KeepsTable (raiseFault c op key) := fun _ => ⟨rfl, rfl, fun _ _ => rfl⟩

theorem keepsTable_respond (r : Response) : KeepsTable (respond r) :=
  fun _ => ⟨rfl, rfl, fun _ _ => rfl⟩

theorem keepsTable_answer (d : Word64) (e : Bool) : KeepsTable fun s => s.answer d e :=
  fun _ => ⟨rfl, rfl, fun _ _ => rfl⟩

theorem keepsTable_handOver : KeepsTable handOver := fun _ => ⟨rfl, rfl, fun _ _ => rfl⟩

theorem keepsTable_advance : KeepsTable State.advance := fun _ => ⟨rfl, rfl, fun _ _ => rfl⟩

theorem keepsTable_nextFree : KeepsTable State.nextFree := fun _ => ⟨rfl, rfl, fun _ _ => rfl⟩

/-! ### Bank writes -/

theorem setBank_banks (b : BitVec 1) (m m' : Memory Slot)
    (h : ∃ b0 b1, t = { s with bank0 := b0, bank1 := b1 }) :
    ∃ b0 b1, t.setBank b m' = { s.setBank b m with bank0 := b0, bank1 := b1 } := by
  obtain ⟨b0, b1, rfl⟩ := h
  unfold State.setBank
  split
  · exact ⟨_, _, rfl⟩
  · exact ⟨_, _, rfl⟩

theorem setBank_wf (h : ∀ b, Memory.wf .empty (s.bank b)) (b : BitVec 1) {m : Memory Slot}
    (hm : Memory.wf .empty m) (b' : BitVec 1) : Memory.wf .empty ((s.setBank b m).bank b') := by
  rcases eq_or_ne b b' with rfl | hne
  · rwa [bank_setBank_same]
  · rw [bank_setBank_other _ hne]; exact h b'

/-- Both tables replaced by tables that read alike. -/
theorem Twins.setActive (h : Twins s t) {m m' : Memory Slot}
    (ha : AgreeBelow s.capacity.toNat m m') (hm : Memory.wf .empty m) (hm' : Memory.wf .empty m') :
    Twins (s.setBank s.active m) (t.setBank t.active m') where
  banks := by rw [h.active_eq]; exact setBank_banks _ _ _ h.banks
  table := by rwa [table_setBank_active, table_setBank_active, setBank_capacity]
  wf_left := setBank_wf h.wf_left _ hm
  wf_right := setBank_wf h.wf_right _ hm'

/-- Both inactive banks replaced, by whatever is in canonical form. -/
theorem Twins.setInactive (h : Twins s t) {m m' : Memory Slot} (hm : Memory.wf .empty m)
    (hm' : Memory.wf .empty m') :
    Twins (s.setBank (1 - s.active) m) (t.setBank (1 - t.active) m') where
  banks := by rw [h.active_eq]; exact setBank_banks _ _ _ h.banks
  table := by rw [table_setBank_inactive, table_setBank_inactive, setBank_capacity]; exact h.table
  wf_left := setBank_wf h.wf_left _ hm
  wf_right := setBank_wf h.wf_right _ hm'

theorem Twins.slotWrite (h : Twins s t) (p : Nat) (v : Slot) :
    Twins (s.slotWrite s.active p v) (t.slotWrite t.active p v) :=
  h.setActive (h.table.write (h.wf_left _) (h.wf_right _) p v) (Memory.wf_write (h.wf_left _))
    (Memory.wf_write (h.wf_right _))

theorem Twins.insertSlot (h : Twins s t) (p : Nat) (key : Word64) :
    Twins (insertSlot p key s) (insertSlot p key t) := by
  have hf := h.eq_of_blind State.filled fun _ _ _ => rfl
  unfold Machine.insertSlot
  rw [hf]
  exact (h.slotWrite p (.occupied key)).map (f := fun u => { u with filled := s.filled + 1 })
    fun _ => ⟨rfl, rfl, fun _ _ => rfl⟩

theorem Twins.removeSlot (h : Twins s t) (p : Nat) :
    Twins (removeSlot p s) (removeSlot p t) := by
  have hf := h.eq_of_blind State.filled fun _ _ _ => rfl
  have hr := h.eq_of_blind State.removed fun _ _ _ => rfl
  unfold Machine.removeSlot
  rw [hf, hr]
  exact (h.slotWrite p .tombstone).map
    (f := fun u => { u with removed := s.removed + 1, filled := s.filled - 1 })
    fun _ => ⟨rfl, rfl, fun _ _ => rfl⟩

theorem Twins.compactTable (h : Twins s t) : Twins (compactTable s) (compactTable t) := by
  have hbank : AgreeBelow s.capacity.toNat (compactBank s.capacity.toNat s.table)
      (compactBank t.capacity.toNat t.table) := by
    rw [h.capacity_eq]
    exact compactFrom_agree _ _ _ h.table (h.wf_left _) (h.wf_right _)
  exact (h.setActive hbank (compactFrom_wf _ _ _ (h.wf_left _))
    (compactFrom_wf _ _ _ (h.wf_right _))).map (f := fun u => { u with removed := 0 })
    fun _ => ⟨rfl, rfl, fun _ _ => rfl⟩

/-! ### Sequences -/

theorem Twins.hash64_eq (h : Twins s t) : t.hash64 = s.hash64 :=
  h.eq_of_blind State.hash64 fun _ _ _ => hash64_congr rfl rfl rfl

/-- A rebuild reads the old table and writes a fresh one over the same slots of both states. -/
theorem Twins.rebuiltBank (h : Twins s t) (N : Nat) :
    (t.rebuiltBank N).2 = (s.rebuiltBank N).2
      ∧ AgreeBelow N (s.rebuiltBank N).1 (t.rebuiltBank N).1 := by
  unfold State.rebuiltBank
  rw [h.hash64_eq, h.capacity_eq]
  exact placeFrom_agree h.table _ _ (Nat.le_of_eq (Nat.zero_add _)) (AgreeBelow.clearBelow N _ _)
    (Memory.wf_clearBelow (h.wf_left _)) (Memory.wf_clearBelow (h.wf_right _))

theorem rebuiltBank_wf_of_banks (h : ∀ b, Memory.wf .empty (s.bank b)) (N : Nat) :
    Memory.wf .empty (s.rebuiltBank N).1 := placeFrom_wf _ _ (Memory.wf_clearBelow (h _))

theorem Twins.commitRebuild (h : Twins s t) (N : Nat) :
    Twins (commitRebuild N s) (commitRebuild N t) where
  banks := by
    have hbanks := setBank_banks (1 - s.active) (s.rebuiltBank N).1 (t.rebuiltBank N).1 h.banks
    obtain ⟨b0, b1, he⟩ := hbanks
    refine ⟨b0, b1, ?_⟩
    unfold Machine.commitRebuild
    rw [h.active_eq, he]
  table := by
    rw [table_commitRebuild, table_commitRebuild]
    refine (h.rebuiltBank N).2.mono ?_
    rw [BitVec.toNat_ofNat]
    exact Nat.mod_le _ _
  wf_left := setBank_wf h.wf_left _ (rebuiltBank_wf_of_banks h.wf_left N)
  wf_right := setBank_wf h.wf_right _ (rebuiltBank_wf_of_banks h.wf_right N)

/-- Two sequences that end alike, in states with the same view. -/
inductive RanAlike : Ran → Ran → Prop
  | done {s t : State} (ev : Events) (h : Twins s t) : RanAlike (.done s ev) (.done t ev)
  | raised {s t : State} (h : Twins s t) : RanAlike (.raised s) (.raised t)

theorem RanAlike.finish {r q : Ran} {f g : State → Events → State} (h : RanAlike r q)
    (hfg : ∀ s t ev, Twins s t → Twins (f s ev) (g t ev)) : Twins (r.finish f) (q.finish g) := by
  cases h with
  | done ev h => exact hfg _ _ ev h
  | raised h => exact h

theorem Twins.rebuild (h : Twins s t) (op : BitVec 2) (key : Word64) (N : Nat) :
    RanAlike (rebuild op key N s) (rebuild op key N t) := by
  rw [rebuild_eq, rebuild_eq, (h.rebuiltBank N).1]
  split
  · exact .done _ (h.commitRebuild N)
  · exact .raised ((h.setInactive (rebuiltBank_wf_of_banks h.wf_left N)
      (rebuiltBank_wf_of_banks h.wf_right N)).map (keepsTable_raiseFault _ _ _))

theorem Twins.growTable (h : Twins s t) (op : BitVec 2) (key : Word64) :
    RanAlike (growTable op key s) (growTable op key t) := by
  have hmax := h.eq_of_blind State.capMax fun _ _ _ => rfl
  unfold Machine.growTable
  rw [hmax, h.capacity_eq]
  split
  · exact .raised (h.map (keepsTable_raiseFault _ _ _))
  · exact h.rebuild op key _

theorem Twins.shrinkTable (h : Twins s t) (op : BitVec 2) (key : Word64) :
    RanAlike (shrinkTable op key s) (shrinkTable op key t) := by
  unfold Machine.shrinkTable
  rw [h.capacity_eq]
  exact h.rebuild op key _

theorem Twins.postInsert (h : Twins s t) (key : Word64) :
    RanAlike (postInsert key s) (postInsert key t) := by
  have hgrow := h.growTable opInsert key
  have hcond := h.eq_of_blind State.growCond fun _ _ _ => rfl
  unfold Machine.postInsert
  rw [hcond]
  split
  · generalize Machine.growTable opInsert key s = r at hgrow
    generalize Machine.growTable opInsert key t = q at hgrow
    cases hgrow with
    | done ev hu => exact .done _ hu
    | raised hu => exact .raised hu
  · exact .done _ h

theorem Twins.shrinkIfLow (h : Twins s t) (key : Word64) (ev : Events) :
    RanAlike (shrinkIfLow key ev s) (shrinkIfLow key ev t) := by
  have hshrink := h.shrinkTable opRemove key
  have hcond := h.eq_of_blind State.shrinkCond fun _ _ _ => rfl
  unfold Machine.shrinkIfLow
  rw [hcond, h.capacity_eq]
  split
  · generalize Machine.shrinkTable opRemove key s = r at hshrink
    generalize Machine.shrinkTable opRemove key t = q at hshrink
    cases hshrink with
    | done ev hu => exact .done _ hu
    | raised hu => exact .raised hu
  · exact .done _ h

theorem Twins.postRemove (h : Twins s t) (key : Word64) :
    RanAlike (postRemove key s) (postRemove key t) := by
  have hcond := h.eq_of_blind State.cleanCond fun _ _ _ => rfl
  unfold Machine.postRemove
  rw [hcond]
  split
  · exact h.compactTable.shrinkIfLow key _
  · exact h.shrinkIfLow key _

/-! ### Commands -/

theorem Twins.homeOf_eq (h : Twins s t) (key : Word64) (c : Nat) :
    t.homeOf key c = s.homeOf key c := by unfold State.homeOf; rw [h.hash64_eq]

theorem Twins.freeSlot_eq (h : Twins s t) (key : Word64) : t.freeSlot key = s.freeSlot key := by
  unfold State.freeSlot
  rw [h.homeOf_eq, h.capacity_eq, probeFree_agree h.table]

theorem Twins.keySlot_eq (h : Twins s t) (key : Word64) : t.keySlot key = s.keySlot key := by
  have hstop := h.eq_of_blind State.lookupEmptyStop fun _ _ _ => rfl
  unfold State.keySlot
  rw [h.homeOf_eq, h.capacity_eq, hstop, probeKey_agree h.table]

theorem Twins.okResponse_eq {u v : State} (h : Twins s t) (h' : Twins u v) (op : BitVec 2)
    (key : Word64) (p : Nat) (ev : Events) :
    okResponse op key p t v ev = okResponse op key p s u ev := by
  unfold okResponse
  rw [h.homeOf_eq, h.capacity_eq, h.hash64_eq, h'.capacity_eq]

theorem Twins.finish {r q : Ran} (h : Twins s t) (hr : RanAlike r q) (op : BitVec 2) (key : Word64)
    (p : Nat) :
    Twins (r.finish fun u ev => respond (okResponse op key p s u ev) u)
      (q.finish fun u ev => respond (okResponse op key p t u ev) u) := by
  refine hr.finish fun u v ev hu => ?_
  rw [h.okResponse_eq hu]
  exact hu.map (keepsTable_respond _)

theorem Twins.runInsert (h : Twins s t) (key : Word64) :
    Twins (runInsert key s) (runInsert key t) := by
  cases hp : s.freeSlot key with
  | none =>
    rw [runInsert_full hp, runInsert_full ((h.freeSlot_eq key).trans hp)]
    exact h.map (keepsTable_raiseFault _ _ _)
  | some p =>
    rw [runInsert_writes hp, runInsert_writes ((h.freeSlot_eq key).trans hp)]
    exact h.finish ((h.insertSlot p key).postInsert key) _ _ _

theorem Twins.respondProbe (h : Twins s t) (op : BitVec 2) (key : Word64) :
    Twins (respond (probeResponse op key s) s) (respond (probeResponse op key t) t) := by
  have hkey := h.keySlot_eq key
  unfold State.keySlot State.table at hkey
  have hresp : probeResponse op key t = probeResponse op key s := by
    unfold probeResponse
    dsimp only
    rw [hkey, h.homeOf_eq, h.capacity_eq, h.hash64_eq]
  rw [hresp]
  exact h.map (keepsTable_respond _)

theorem Twins.runRemove (h : Twins s t) (key : Word64) :
    Twins (runRemove key s) (runRemove key t) := by
  cases hp : s.keySlot key with
  | none =>
    rw [runRemove_absent hp, runRemove_absent ((h.keySlot_eq key).trans hp)]
    exact h.respondProbe _ key
  | some p =>
    rw [runRemove_writes hp, runRemove_writes ((h.keySlot_eq key).trans hp)]
    exact h.finish ((h.removeSlot p).postRemove key) _ _ _

theorem Twins.runReserved (h : Twins s t) (key : Word64) :
    Twins (runReserved key s) (runReserved key t) := by
  have hresp : reservedResponse key t = reservedResponse key s := by
    unfold reservedResponse
    rw [h.capacity_eq]
  unfold Machine.runReserved
  rw [hresp]
  exact h.map (keepsTable_respond _)

/-! ### Answers -/

/-- Where the first answer is a next state the second is one too, with the same view. -/
def AnswersAlike (r q : Answer) : Prop :=
  ∀ s', r = .next s' → ∃ t', q = .next t' ∧ Twins s' t'

theorem answersAlike_next (h : Twins s t) : AnswersAlike (.next s) (.next t) := by
  rintro _ ⟨⟩
  exact ⟨t, rfl, h⟩

theorem answersAlike_fault (e : Fault) (q : Answer) : AnswersAlike (.fault e) q :=
  fun _ h => nomatch h

theorem AnswersAlike.andThen {r q : Answer} (h : AnswersAlike r q) {f : State → State}
    (hf : KeepsTable f) : AnswersAlike (andThen r f) (andThen q f) := by
  intro s' hs'
  obtain ⟨v, hv, rfl⟩ := andThen_next hs'
  obtain ⟨w, hw, hvw⟩ := h v hv
  exact ⟨f w, by rw [hw]; rfl, hvw.map hf⟩

theorem onCommandPort_alike {run : State → State} (h : Twins s t)
    (hrun : Twins (run s) (run t)) : AnswersAlike (onCommandPort s run) (onCommandPort t run) := by
  have hacc := h.eq_of_blind State.acceptsCommand fun _ _ _ => rfl
  have hcap := h.eq_of_blind State.capacityInRange fun _ _ _ => rfl
  unfold onCommandPort
  rw [hacc, hcap]
  split
  · split
    · exact answersAlike_next hrun
    · exact answersAlike_fault _ _
  · exact answersAlike_next h

theorem exec_command_alike (h : Twins s t) (w : CmdWord) :
    AnswersAlike (exec (decodeCmd w) s) (exec (decodeCmd w) t) := by
  obtain ⟨key, hi | hi | hi | hi⟩ := decodeCmd_cases w
  all_goals rw [hi]
  · exact onCommandPort_alike h (h.runInsert key)
  · exact onCommandPort_alike h (h.respondProbe _ key)
  · exact onCommandPort_alike h (h.runRemove key)
  · exact onCommandPort_alike h (h.runReserved key)

/-! ### Register transactions -/

theorem onRegisterPort_alike {run : State → Answer} (h : Twins s t)
    (hrun : AnswersAlike (run s) (run t)) :
    AnswersAlike (onRegisterPort s run) (onRegisterPort t run) := by
  unfold onRegisterPort
  rw [h.busy_eq]
  split
  · exact answersAlike_next h
  · exact hrun

theorem onRefusedWrite_alike (h : Twins s t) :
    AnswersAlike (onRefusedWrite s) (onRefusedWrite t) :=
  onRegisterPort_alike h (answersAlike_next (h.map (keepsTable_answer 0 true)))

theorem onConfigWrite_alike {run : State → State} (h : Twins s t) (hrun : KeepsTable run) :
    AnswersAlike (onConfigWrite s run) (onConfigWrite t run) := by
  refine onRegisterPort_alike h (answersAlike_next ?_)
  rw [h.mode_eq]
  split
  · exact (h.map hrun).map (keepsTable_answer 0 false)
  · exact h.map (keepsTable_answer 0 true)

/-- A read shows a slot of the table only (10_state.md R135, R136). -/
theorem Twins.readRegister_eq (h : Twins s t) (a : BitVec 8) :
    t.readRegister a = s.readRegister a := by
  have hpeek : t.peekedSlot = s.peekedSlot := by
    have htable := h.table
    obtain ⟨⟨b0, b1, rfl⟩, -, -, -⟩ := h
    unfold State.peekedSlot
    dsimp only
    split
    · exact congrArg some (htable _ ‹_›)
    · rfl
  unfold State.readRegister
  rw [hpeek]
  obtain ⟨⟨b0, b1, rfl⟩, -, -, -⟩ := h
  rfl

theorem execRd_alike (h : Twins s t) (a : BitVec 8) (w : Word64) :
    AnswersAlike (execRd a w s) (execRd a w t) := by
  have hout := h.eq_of_blind (fun u => u.readIsOutside a) fun _ _ _ => rfl
  have hfree := h.eq_of_blind (fun u => u.readIsFree a) fun _ _ _ => rfl
  have hreply : Twins { s with reply := some (s.readRegister a) }
      { t with reply := some (t.readRegister a) } := by
    rw [h.readRegister_eq]
    exact h.map (f := fun u => { u with reply := some (s.readRegister a) })
      fun _ => ⟨rfl, rfl, fun _ _ => rfl⟩
  refine onRegisterPort_alike h ?_
  rw [hout, hfree]
  split
  · exact answersAlike_fault _ _
  · refine answersAlike_next ?_
    split
    · exact hreply.map keepsTable_nextFree
    · exact hreply

/-- START clears the table it makes (44_register_ops.md R805). -/
theorem Twins.startTable (h : Twins s t) : Twins (startTable s) (startTable t) := by
  obtain ⟨⟨b0, b1, rfl⟩, -, hw, hw'⟩ := h
  have hstart {u : State} (hu : ∀ b, Memory.wf .empty (u.bank b)) (b : BitVec 1) :
      Memory.wf .empty ((Machine.startTable u).bank b) := by
    rcases bit_cases b with rfl | rfl
    · exact Memory.wf_clearBelow (hu 0)
    · exact hu 1
  exact ⟨⟨_, _, rfl⟩, AgreeBelow.clearBelow _ _ _, hstart hw, hstart hw'⟩

/-- In CONFIG mode there is no table (10_state.md R105). -/
theorem Twins.softReset (h : Twins s t) : Twins (softReset s) (softReset t) := by
  obtain ⟨⟨b0, b1, rfl⟩, -, hw, hw'⟩ := h
  exact ⟨⟨b0, b1, rfl⟩, fun i hi => absurd hi (Nat.not_lt_zero i), hw, hw'⟩

theorem Twins.hardwareReset (h : Twins s t) : Twins (hardwareReset s) (hardwareReset t) :=
  h.softReset.map
    (f := fun u => { u with initCapacity := 0, growThr := 49152, shrinkThr := 16384, htw := 0,
                            dp := Datapath.idle, reply := none })
    fun _ => ⟨rfl, rfl, fun _ _ => rfl⟩

theorem execStart_alike (h : Twins s t) : AnswersAlike (execStart s) (execStart t) := by
  have hlegal := h.eq_of_blind State.startLegal fun _ _ _ => rfl
  refine onRegisterPort_alike h (answersAlike_next ?_)
  rw [hlegal]
  split
  · exact h.startTable.map (keepsTable_answer 0 false)
  · exact h.map (keepsTable_answer 0 true)

theorem execCompactNow_alike (h : Twins s t) :
    AnswersAlike (execCompactNow s) (execCompactNow t) := by
  have hcap := h.eq_of_blind State.capacityInRange fun _ _ _ => rfl
  refine onRegisterPort_alike h ?_
  rw [h.mode_eq, hcap]
  split
  · split
    · exact answersAlike_next (h.compactTable.map (keepsTable_answer 0 false))
    · exact answersAlike_fault _ _
  · exact answersAlike_next (h.map (keepsTable_answer 0 true))

theorem exec_register_alike {i : Instr} (hi : isRegisterRow i = true) (h : Twins s t) :
    AnswersAlike (exec i s) (exec i t) := by
  cases i with
  | insert _ | lookup _ | remove _ | cmdReserved _ | hash _ | probeFree _ _ _ | probeKey _ _ _
  | grow | shrink | rebuild _ | compact => cases hi
  | rd a w => exact execRd_alike h a w
  | wrInitCapacity d | wrGrowThr d | wrShrinkThr d | wrHtIndex d | wrHtData d =>
    simp only [exec, execWrInitCapacity, execWrGrowThr, execWrShrinkThr, execWrHtIndex,
      execWrHtData]
    exact onConfigWrite_alike h fun _ => ⟨rfl, rfl, fun _ _ => rfl⟩
  | wrCtrl d =>
    simp only [exec, execWrCtrl]
    refine onRegisterPort_alike h (answersAlike_next ?_)
    split
    · exact h.map (keepsTable_answer 0 false)
    · exact h.map (keepsTable_answer 0 true)
  | start => exact execStart_alike h
  | softReset =>
    simp only [exec, execSoftReset]
    exact onRegisterPort_alike h (answersAlike_next (h.softReset.map (keepsTable_answer 0 false)))
  | compactNow => exact execCompactNow_alike h
  | wrSlotIndex d =>
    simp only [exec, execWrSlotIndex]
    exact onRegisterPort_alike h (answersAlike_next
      (h.map (f := fun u => { u with slotIndex := d.setWidth 32 }.answer 0 false)
        fun _ => ⟨rfl, rfl, fun _ _ => rfl⟩))
  | wrRefused01 _ | wrRefused02 _ _ | wrRefused07 _ | wrRefused08 _ _ | wrRefused0A _
  | wrRefused0E _ _ | wrRefused10 _ _ | wrRefused20 _ _ | wrRefused40 _ _ | wrRefused80 _ _ =>
    exact onRefusedWrite_alike h

/-! ### Steps -/

/-- A register transaction and a hand-over at one edge, in the order the free value gives
(log entry 9). -/
theorem step_register_ordered {w : RegWord} (h : s.pins.rst = false) (hb : s.busy = false)
    (hr : s.pins.reg = some w) (ht : s.transfersResponse = true) :
    step s = if Config.handOverFirst s.freeCtr then exec (decodeReg w) (handOver s.advance.nextFree)
      else andThen (exec (decodeReg w) s.advance.nextFree) handOver := by
  cases hc : Config.handOverFirst s.freeCtr <;> simp [step, State.edge, h, hb, hr, ht, hc]

theorem step_alike (hb : s.busy = false) (h : Twins s t) : AnswersAlike (step s) (step t) := by
  have hadv := h.map keepsTable_advance
  have hfree := hadv.map keepsTable_nextFree
  have hbt : t.busy = false := h.busy_eq.trans hb
  have hpins := h.eq_of_blind State.pins fun _ _ _ => rfl
  have htrans := h.eq_of_blind State.transfersResponse fun _ _ _ => rfl
  have hctr := h.eq_of_blind State.freeCtr fun _ _ _ => rfl
  cases hrst : s.pins.rst with
  | true =>
    rw [step_reset hrst, step_reset (hpins ▸ hrst)]
    exact answersAlike_next hadv.hardwareReset
  | false =>
    have hrst' : t.pins.rst = false := hpins ▸ hrst
    cases hreg : s.pins.reg with
    | some w =>
      have hreg' : t.pins.reg = some w := hpins ▸ hreg
      have hw := decodeReg_isRegisterRow w
      cases hresp : s.transfersResponse with
      | false =>
        rw [step_register hrst hb hreg hresp, step_register hrst' hbt hreg' (htrans.trans hresp)]
        exact exec_register_alike hw hadv
      | true =>
        rw [step_register_ordered hrst hb hreg hresp,
          step_register_ordered hrst' hbt hreg' (htrans.trans hresp), hctr]
        split
        · exact exec_register_alike hw (hfree.map keepsTable_handOver)
        · exact (exec_register_alike hw hfree).andThen keepsTable_handOver
    | none =>
      have hreg' : t.pins.reg = none := hpins ▸ hreg
      cases hresp : s.transfersResponse with
      | true =>
        rw [step_handOver hrst hb hreg hresp, step_handOver hrst' hbt hreg' (htrans.trans hresp)]
        exact answersAlike_next (hadv.map keepsTable_handOver)
      | false =>
        cases hcmd : s.pins.cmd with
        | some w =>
          rw [step_command hrst hb hreg hresp hcmd,
            step_command hrst' hbt hreg' (htrans.trans hresp) (hpins ▸ hcmd)]
          exact exec_command_alike hadv w
        | none =>
          rw [step_nothing hrst hb hreg hresp hcmd,
            step_nothing hrst' hbt hreg' (htrans.trans hresp) (hpins ▸ hcmd)]
          exact answersAlike_next hadv

/-- Settles O10: every operation of an edge treats two states with the same view alike. -/
theorem slotsOutsideTheTableDoNotMatter : Obligations.SlotsOutsideTheTableDoNotMatter := by
  intro s t s' hs ht hview hstep
  obtain ⟨t', hstep', htwins⟩ := step_alike hs.not_busy (Twins.of_sound hs ht hview) s' hstep
  exact ⟨t', hstep', htwins.sameView, htwins.outputs_eq.symm⟩

end Sys2Proof.Machine
end

section
/-! SUPPORT. Every operation keeps the storages canonical and inside their index ranges
(20_memory.md R200, 10_state.md R108), whatever the counters hold. -/

namespace Sys2Proof.Machine

section Ranges

variable {α : Type} [DecidableEq α] {d v : α} {m : Memory α} {i b : Nat}

/-- The storage lists nothing at or above index `b`. -/
abbrev Memory.Below (b : Nat) (m : Memory α) : Prop := ∀ e ∈ m, e.1 < b

theorem Memory.Below.write (h : Memory.Below b m) (hi : v ≠ d → i < b) :
    Memory.Below b (Memory.write d m i v) := by
  intro e he
  rcases Memory.mem_write he with hmem | ⟨rfl, hv⟩
  · exact h e hmem
  · exact hi hv

omit [DecidableEq α] in
theorem Memory.Below.clearBelow (h : Memory.Below b m) (n : Nat) :
    Memory.Below b (Memory.clearBelow n m) := fun e he => h e (Memory.mem_clearBelow he)

omit [DecidableEq α] in
/-- An index that does not read as an unlisted one is listed. -/
theorem Memory.Below.lt_of_read (h : Memory.Below b m) (hr : Memory.read d m i ≠ d) : i < b :=
  h _ ((Memory.read_cases d m i).resolve_right hr)

/-- The inner loop of compaction moves keys to the left only (43_sequencer.md R710). -/
theorem shiftRun_below {c size b : Nat} (n j : Nat) {m : Memory Slot} (h : Memory.Below b m) :
    Memory.Below b (shiftRun c size n j m).1 := by
  induction n generalizing j m with
  | zero => exact h
  | succ n ih =>
    unfold shiftRun
    split
    · split
      next k hk =>
        have hj : j < b := h.lt_of_read (d := .empty) (by simp [hk])
        exact ih _ ((h.write fun _ => by omega).write fun _ => hj)
      · exact h
      · exact h
    · exact h

/-- Compaction lists nothing beyond what was listed, at any capacity. -/
theorem compactFrom_below {c b : Nat} (n i : Nat) (start : Option Nat) {m : Memory Slot}
    (h : Memory.Below b m) : Memory.Below b (compactFrom c n i start m) := by
  induction n generalizing i start m with
  | zero => exact h
  | succ n ih =>
    unfold compactFrom
    split
    · split
      · exact ih _ _ (h.write fun hne => absurd rfl hne)
      · exact ih _ _ h
      · split
        · exact ih _ _ h
        · exact ih _ _ (shiftRun_below _ _ h)
    · exact h

end Ranges

variable {s t : State}

/-! ### Table operations -/

/-- COMPACT keeps the storages legal even where CAPACITY is above CAP_MAX. -/
theorem storageLegal_compactTable_anyCapacity (h : s.storageLegal) :
    (compactTable s).storageLegal := by
  obtain ⟨hw, hb⟩ := storageLegal_bank h s.active
  exact storageLegal_setBank h _ (compactFrom_wf _ _ _ hw) (compactFrom_below _ _ _ hb)

theorem storageLegal_startTable (h : s.storageLegal) : (startTable s).storageLegal := by
  obtain ⟨hht, hhti, hw0, hi0, hbank1⟩ := h
  exact ⟨hht, hhti, Memory.wf_clearBelow hw0, Memory.Below.clearBelow hi0 _, hbank1⟩

/-- A rebuild to a capacity that exists, committed or not. -/
theorem storageLegal_rebuild (h : s.storageLegal) {N : Nat} (hN : N ≤ s.capMax) (op : BitVec 2)
    (key : Word64) : (rebuild op key N s).state.storageLegal := by
  have hbuilt := storageLegal_rebuiltBank h hN
  rw [rebuild_eq]
  split
  · exact hbuilt
  · exact hbuilt

theorem storageLegal_growTable (h : s.storageLegal) (op : BitVec 2) (key : Word64) :
    (growTable op key s).state.storageLegal := by
  rcases Nat.lt_or_ge s.capMax (2 * s.capacity.toNat) with hover | hfits
  · rw [growTable_overflow hover]; exact h
  · rw [growTable_rebuilds hfits]; exact storageLegal_rebuild h hfits op key

theorem storageLegal_shrinkTable (h : s.storageLegal) (hc : s.capacity.toNat ≤ s.capMax)
    (op : BitVec 2) (key : Word64) : (shrinkTable op key s).state.storageLegal :=
  storageLegal_rebuild h (by omega) op key

/-! ### Commands -/

theorem storageLegal_postInsert (h : s.storageLegal) (key : Word64) :
    (postInsert key s).state.storageLegal := by
  have hgrow := storageLegal_growTable h opInsert key
  rcases postInsert_cases key s with ⟨-, e⟩ | ⟨-, t, ev, hg, e⟩ | ⟨-, t, hg, e⟩
  · rwa [e]
  · rw [e]; rwa [hg] at hgrow
  · rw [e]; rwa [hg] at hgrow

theorem storageLegal_shrinkIfLow (h : s.storageLegal) (hc : s.capacity.toNat ≤ s.capMax)
    (key : Word64) (ev : Events) : (shrinkIfLow key ev s).state.storageLegal := by
  have hshrink := storageLegal_shrinkTable h hc opRemove key
  rcases shrinkIfLow_cases key ev s with ⟨-, e⟩ | ⟨-, -, t, ev', hg, e⟩ | ⟨-, -, t, hg, e⟩
  · rwa [e]
  · rw [e]; rwa [hg] at hshrink
  · rw [e]; rwa [hg] at hshrink

theorem storageLegal_postRemove (h : s.storageLegal) (hc : s.capacity.toNat ≤ s.capMax)
    (key : Word64) : (postRemove key s).state.storageLegal := by
  rcases postRemove_cases key s with ⟨-, e⟩ | ⟨-, e⟩
  · rw [e]; exact storageLegal_shrinkIfLow h hc key _
  · have hc' : (compactTable s).capacity.toNat ≤ (compactTable s).capMax := by
      simpa [compactTable] using hc
    rw [e]
    exact storageLegal_shrinkIfLow (storageLegal_compactTable h hc) hc' key _

/-- A response after a sequence touches no storage. -/
theorem storageLegal_finish {r : Ran} (h : r.state.storageLegal) (f : State → Events → Response) :
    (r.finish fun u ev => respond (f u ev) u).storageLegal := by
  cases r with
  | done u ev => exact h
  | raised u => exact h

theorem storageLegal_runInsert (h : s.storageLegal) (hc : s.capacity.toNat ≤ s.capMax)
    (key : Word64) : (runInsert key s).storageLegal := by
  cases hp : s.freeSlot key with
  | none => rw [runInsert_full hp]; exact h
  | some p =>
    have hlt := probeFree_lt hp
    have hslot : (insertSlot p key s).storageLegal :=
      storageLegal_slotWrite h s.active (by omega) (.occupied key)
    rw [runInsert_writes hp]
    exact storageLegal_finish (storageLegal_postInsert hslot key) _

theorem storageLegal_runRemove (h : s.storageLegal) (hc : s.capacity.toNat ≤ s.capMax)
    (key : Word64) : (runRemove key s).storageLegal := by
  cases hp : s.keySlot key with
  | none => rw [runRemove_absent hp]; exact h
  | some p =>
    have hlt := probeKey_lt hp
    have hslot : (removeSlot p s).storageLegal :=
      storageLegal_slotWrite h s.active (by omega) .tombstone
    rw [runRemove_writes hp]
    exact storageLegal_finish (storageLegal_postRemove hslot (by simpa using hc) key) _

theorem capacity_le_capMax (h : s.capacityInRange = true) : s.capacity.toNat ≤ s.capMax := by
  obtain ⟨-, hmax⟩ := (Bool.and_eq_true _ _).mp h
  exact of_decide_eq_true hmax

/-- A command runs at a capacity in range only (42_commands.md R600). -/
theorem storageLegal_onCommandPort {run : State → State} (h : s.storageLegal)
    (hrun : s.capacity.toNat ≤ s.capMax → (run s).storageLegal)
    (he : onCommandPort s run = .next t) : t.storageLegal := by
  rcases onCommandPort_cases s run with ⟨-, e⟩ | ⟨-, hcap, e⟩ | ⟨-, -, e⟩
  · rw [e] at he; cases he; exact h
  · rw [e] at he; cases he
    exact hrun (capacity_le_capMax hcap)
  · rw [e] at he; cases he

/-! ### Register transactions -/

theorem storageLegal_registerEffect {i : Instr} (h : s.storageLegal) (he : RegisterEffect i s t) :
    t.storageLegal := by
  cases he with
  | update _ hupdate => obtain ⟨-, -, hstore⟩ := hupdate; exact hstore h
  | start _ _ => exact storageLegal_startTable h
  | softReset _ => exact h
  | compactNow _ => exact storageLegal_compactTable_anyCapacity h

theorem onRefusedWrite_busy (hb : s.busy = true) : onRefusedWrite s = .next s :=
  onRegisterPort_busy hb

/-- At a busy engine a register transaction waits (20_memory.md R211). -/
theorem exec_register_busy {i : Instr} (hi : isRegisterRow i = true) (hb : s.busy = true) :
    exec i s = .next s := by
  cases i with
  | insert _ | lookup _ | remove _ | cmdReserved _ | hash _ | probeFree _ _ _ | probeKey _ _ _
  | grow | shrink | rebuild _ | compact => cases hi
  | rd _ _ => simp only [exec, execRd, onRegisterPort_busy hb]
  | wrInitCapacity _ | wrGrowThr _ | wrShrinkThr _ | wrHtIndex _ | wrHtData _ =>
    simp only [exec, execWrInitCapacity, execWrGrowThr, execWrShrinkThr, execWrHtIndex,
      execWrHtData, onConfigWrite, onRegisterPort_busy hb]
  | wrCtrl _ | start | softReset | compactNow | wrSlotIndex _ =>
    simp only [exec, execWrCtrl, execStart, execSoftReset, execCompactNow, execWrSlotIndex,
      onRegisterPort_busy hb]
  | wrRefused01 _ | wrRefused02 _ _ | wrRefused07 _ | wrRefused08 _ _ | wrRefused0A _
  | wrRefused0E _ _ | wrRefused10 _ _ | wrRefused20 _ _ | wrRefused40 _ _ | wrRefused80 _ _ =>
    exact onRefusedWrite_busy hb

theorem storageLegal_exec_register {i : Instr} (hi : isRegisterRow i = true) (h : s.storageLegal)
    (he : exec i s = .next t) : t.storageLegal := by
  cases hb : s.busy with
  | false => exact storageLegal_registerEffect h (exec_register_effect hi hb he)
  | true =>
    rw [exec_register_busy hi hb] at he
    cases he
    exact h

/-! ### Internal operations -/

/-- A table operation that checks CAPACITY first (42_commands.md R600). -/
theorem storageLegal_guarded {u : State} (hu : s.capacityInRange = true → u.storageLegal)
    (he : (if s.capacityInRange then .next u else .fault .capacityOutOfRange : Answer) = .next t) :
    t.storageLegal := by
  split at he
  · cases he; exact hu ‹_›
  · cases he

theorem storageLegal_execShrink (h : s.storageLegal) (he : execShrink s = .next t) :
    t.storageLegal := by
  refine storageLegal_guarded (fun hcap => ?_) he
  split
  · exact storageLegal_shrinkTable h (capacity_le_capMax hcap) _ _
  · exact h

/-- REBUILD on its own checks its operand too (43_sequencer.md R707). -/
theorem storageLegal_execRebuild {N : Word32} (h : s.storageLegal)
    (he : execRebuild N s = .next t) : t.storageLegal := by
  unfold execRebuild at he
  split at he
  · split at he
    next hN =>
      obtain ⟨-, hmax⟩ := hN
      cases he
      exact storageLegal_rebuild h hmax _ _
    · cases he
  · cases he

/-- A probe on its own writes its result in the datapath registers (41_probe_cam.md R505). -/
theorem storageLegal_probe {p : Prop} [Decidable p] {r : ProbeResult} (h : s.storageLegal)
    (he : (if p then .next (latchProbe r s) else .fault .operandOutOfRange : Answer) = .next t) :
    t.storageLegal := by
  split at he
  · cases he; exact h
  · cases he

/-- Settles O6: what is written lies below CAP_MAX, by the range checks of the operations, or at an
index not above one listed before. -/
theorem everyOperationKeepsTheStorages : Obligations.EveryOperationKeepsTheStorages := by
  intro i s t h he
  cases i with
  | insert key => exact storageLegal_onCommandPort h (storageLegal_runInsert h · key) he
  | remove key => exact storageLegal_onCommandPort h (storageLegal_runRemove h · key) he
  | lookup _ | cmdReserved _ => exact storageLegal_onCommandPort h (fun _ => h) he
  | hash _ => cases he; exact h
  | probeFree _ _ _ | probeKey _ _ _ => exact storageLegal_probe h he
  | grow => exact storageLegal_guarded (fun _ => storageLegal_growTable h _ _) he
  | shrink => exact storageLegal_execShrink h he
  | rebuild _ => exact storageLegal_execRebuild h he
  | compact => exact storageLegal_guarded (fun _ => storageLegal_compactTable_anyCapacity h) he
  | rd _ _ | wrInitCapacity _ | wrGrowThr _ | wrShrinkThr _ | wrHtIndex _ | wrHtData _ | wrCtrl _
  | start | softReset | compactNow | wrSlotIndex _ | wrRefused01 _ | wrRefused02 _ _
  | wrRefused07 _ | wrRefused08 _ _ | wrRefused0A _ | wrRefused0E _ _ | wrRefused10 _ _
  | wrRefused20 _ _ | wrRefused40 _ _ | wrRefused80 _ _ =>
    exact storageLegal_exec_register rfl h he

end Sys2Proof.Machine
end

section
/-! SUPPORT. What one micro-step of the control FSM can do, said once (43_sequencer.md R720); and
the statements on steps at an idle and at a busy engine (20_memory.md R210, R211). -/

namespace Sys2Proof.Machine

variable {s t u : State}

/-! ### Idle engine -/

/-- Settles O16: each clause is one case of the choice of the edge's transaction. -/
theorem stepRunsTheDecodedOperation : Obligations.StepRunsTheDecodedOperation := by
  intro s hrst hidle
  have hb := busy_eq_false_iff.2 hidle
  refine ⟨fun w hreg htr => step_register hrst hb hreg htr, fun w hreg htr => ?_,
    fun w hreg htr hcmd => step_command hrst hb hreg htr hcmd,
    fun hreg htr => step_handOver hrst hb hreg htr,
    fun hreg htr hcmd => step_nothing hrst hb hreg htr hcmd⟩
  refine (step_register_handOver hrst hb hreg htr).imp id fun hstep t ht => ?_
  calc step s = andThen (exec (decodeReg w) s.advance.nextFree) handOver := hstep
    _ = andThen (.next t) handOver := congrArg (andThen · handOver) ht
    _ = .next { t with rspPending := false } := rfl

/-! ### What a micro-step leaves alone -/

/-- `t` is `s` but for the banks, ACTIVE, CAPACITY, the two counters and the datapath registers. -/
def SameButWork (s t : State) : Prop :=
  t = { s with bank0 := t.bank0, bank1 := t.bank1, active := t.active, capacity := t.capacity,
               filled := t.filled, removed := t.removed, dp := t.dp }

theorem SameButWork.refl (s : State) : SameButWork s s := rfl

theorem SameButWork.trans (h : SameButWork s t) (h' : SameButWork t u) : SameButWork s u := by
  unfold SameButWork at *
  rw [h', h]

theorem SameButWork.dp (h : SameButWork s t) (d : Datapath) : SameButWork s { t with dp := d } :=
  h.trans rfl

theorem SameButWork.counters (h : SameButWork s t) (a : BitVec 1) (c f r : Word32) :
    SameButWork s { t with active := a, capacity := c, filled := f, removed := r } :=
  h.trans rfl

theorem SameButWork.slotWrite (h : SameButWork s t) (b : BitVec 1) (i : Nat) (v : Slot) :
    SameButWork s (t.slotWrite b i v) := by
  refine h.trans ?_
  unfold State.slotWrite State.setBank
  split <;> rfl

theorem SameButWork.inputs_eq (h : SameButWork s t) : t.inputs = s.inputs := by rw [h]

theorem SameButWork.reply_eq (h : SameButWork s t) : t.reply = s.reply := by rw [h]

/-! ### What a micro-step can do -/

/-- One micro-step works on the table and in the datapath; or it ends the command with a fault or a
response, or a CTRL action with its reply, START's also with RUN mode. -/
inductive MicroEffect (s : State) : State → Prop
  | works (t : State) (h : SameButWork s t) : MicroEffect s t
  | faults (c : Cause) (op : BitVec 2) (key : Word64) (t : State) (h : SameButWork s t) :
    MicroEffect s (raiseFault c op key t)
  | responds (r : Response) (hfsm : s.dp.fsm = .respond) : MicroEffect s (respond r s)
  | replies (t : State) (h : SameButWork s t) :
    MicroEffect s ({ t with dp := Datapath.idle }.answer 0 false)
  | starts (t : State) (h : SameButWork s t) :
    MicroEffect s ({ t with mode := .run, dp := Datapath.idle }.answer 0 false)

/-- A probe that goes on, or that has missed and goes on as `miss` says. -/
theorem advanceProbe_effect {miss : State → State}
    (hmiss : ∀ u, SameButWork s u → MicroEffect s (miss u)) (c : Word32) :
    MicroEffect s (advanceProbe c miss s) := by
  unfold advanceProbe
  split
  · exact hmiss _ rfl
  · exact .works _ rfl

theorem scanAt_effect (h : SameButWork s t) (i : Word32) (start : Option Word32) :
    MicroEffect s (scanAt i start t) := by
  unfold scanAt
  split
  · exact .works _ (h.dp _)
  · split
    · exact .replies { t with removed := 0 } (h.counters _ _ _ 0)
    · exact .works _ ((h.counters _ _ _ 0).dp _)

theorem nextOldSlot_work (h : SameButWork s t) : SameButWork s (nextOldSlot t) := by
  unfold nextOldSlot
  split
  · exact h.dp _
  · exact h.dp _

theorem microProbe_effect (s : State) : MicroEffect s (microProbe s) := by
  unfold microProbe
  dsimp only
  split
  · split
    · exact .works _ rfl
    · exact advanceProbe_effect (fun u hu => .faults _ _ _ u hu) _
  · split
    · exact .works _ rfl
    · split
      · exact .works _ rfl
      · exact advanceProbe_effect (fun u hu => .works _ (hu.dp _)) _

theorem microWrite_work (s : State) : SameButWork s (microWrite s) := by
  have hwritten {p : Nat} {f r : Word32} (v : Slot) :
      SameButWork s { s.slotWrite s.active p v with filled := f, removed := r } :=
    ((SameButWork.refl s).slotWrite _ _ _).counters _ _ _ _
  unfold microWrite
  dsimp only
  split
  · exact (hwritten _).dp _
  · exact (hwritten _).dp _

theorem microCheck_effect (s : State) : MicroEffect s (microCheck s) := by
  unfold microCheck
  split
  · split
    · split
      · exact .faults _ _ _ s rfl
      · exact .works _ rfl
    · exact .works _ rfl
  · split
    · exact .works _ rfl
    · split
      · exact .works _ rfl
      · exact .works _ rfl

theorem microScan_effect (s : State) : MicroEffect s (microScan s) := by
  unfold microScan
  dsimp only
  split
  · exact scanAt_effect ((SameButWork.refl s).slotWrite _ _ _) _ _
  · exact scanAt_effect (.refl s) _ _
  · split
    · exact scanAt_effect (.refl s) _ _
    · exact .works _ rfl

theorem microShift_effect (s : State) : MicroEffect s (microShift s) := by
  have hmoved (i j : Nat) (v w : Slot) :
      SameButWork s ((s.slotWrite s.active i v).slotWrite s.active j w) :=
    ((SameButWork.refl s).slotWrite _ _ _).slotWrite _ _ _
  unfold microShift
  dsimp only
  split
  · exact .works _ ((hmoved _ _ _ _).dp _)
  · exact scanAt_effect (hmoved _ _ _ _) _ _

theorem microClear_work (s : State) : SameButWork s (microClear s) := by
  have hcleared := (SameButWork.refl s).slotWrite (1 - s.active) s.dp.index.toNat .empty
  unfold microClear
  dsimp only
  split
  · exact hcleared.dp _
  · exact hcleared.dp _

theorem microRebuildScan_work (s : State) : SameButWork s (microRebuildScan s) := by
  unfold microRebuildScan
  split
  · rfl
  · exact nextOldSlot_work rfl
  · exact nextOldSlot_work rfl

theorem microPlace_effect (s : State) : MicroEffect s (microPlace s) := by
  unfold microPlace
  dsimp only
  split
  · exact .works _ (nextOldSlot_work ((SameButWork.refl s).slotWrite _ _ _))
  · exact advanceProbe_effect (fun u hu => .faults _ _ _ u hu) _

theorem microInitClear_effect (s : State) : MicroEffect s (microInitClear s) := by
  have hcleared := (SameButWork.refl s).slotWrite 0 s.dp.index.toNat .empty
  unfold microInitClear
  dsimp only
  split
  · exact .starts _ (hcleared.counters 0 _ 0 0)
  · exact .works _ (hcleared.dp _)

/-- Every state of the FSM has one of these effects. -/
theorem microStep_effect (s : State) : MicroEffect s (microStep s) := by
  unfold microStep
  cases hfsm : s.dp.fsm with
  | idle => exact .works s rfl
  | hash | rbCommit => exact .works _ rfl
  | probe => exact microProbe_effect s
  | write => exact .works _ (microWrite_work s)
  | check => exact microCheck_effect s
  | compactScan => exact microScan_effect s
  | compactShift => exact microShift_effect s
  | rbClear => exact .works _ (microClear_work s)
  | rbScan => exact .works _ (microRebuildScan_work s)
  | rbPlace => exact microPlace_effect s
  | initClear => exact microInitClear_effect s
  | respond => exact .responds _ hfsm

theorem microEffect_inputs (h : MicroEffect s t) : t.inputs = s.inputs := by
  cases h with
  | works _ h => exact h.inputs_eq
  | faults _ _ _ u hu | replies u hu | starts u hu => exact hu.inputs_eq
  | responds _ _ => rfl

/-- The register reply comes with the end of a CTRL action, or stays (log entry 27). -/
theorem microEffect_reply (h : MicroEffect s t) :
    t.reply = s.reply ∨ (t.dp.fsm = .idle ∧ t.reply = some ⟨0, false⟩) := by
  cases h with
  | works _ h => exact .inl h.reply_eq
  | faults _ _ _ u hu => exact .inl hu.reply_eq
  | responds _ _ => exact .inl rfl
  | replies _ _ | starts _ _ => exact .inr ⟨rfl, rfl⟩

/-! ### Busy engine -/

theorem takeResponse_advance : (takeResponse s).advance
    = { s with rspPending := s.rspPending && !s.pins.rspReady, reply := none,
               inputs := s.inputs.tail } := by
  rw [takeResponse_eq]
  rfl

/-- Settles O19: of what a micro-step can do, only the end of a CTRL action writes the reply, and
nothing looks at the request ports. -/
theorem busyEngineServesNoPort : Obligations.BusyEngineServesNoPort := by
  intro s hrst hfsm hcap
  have hb : s.busy = true := by simp [State.busy, hfsm]
  have hruns : s.dp.fsm = .initClear ∨ s.capacityInRange = true :=
    hcap.imp_right fun ⟨hone, hmax⟩ => by simp [State.capacityInRange, hone, hmax]
  have heffect := microStep_effect (takeResponse s).advance
  refine ⟨hb, by simp [State.outputs, State.acceptsCommand, hb], _,
    (step_micro hrst hb).trans (microEdge_runs hruns), congrArg microStep takeResponse_advance,
    ?_, fun hreply => ?_⟩
  · simpa using microEffect_inputs heffect
  · exact (microEffect_reply heffect).resolve_left (by simpa using hreply)

end Sys2Proof.Machine
end

section
/-! The statements on the encodings: the words of the two ports
(30_encoding.md R303, R308, R315 to R317). -/

namespace Sys2Proof

/-! ### From an operation to its word and back -/

/-- Settles O11: the law of each constructor. -/
theorem decodeOfEncode : Obligations.DecodeOfEncode := by
  intro i
  cases i with
  | insert key => exact Laws.EncodeDecode.insert key
  | lookup key => exact Laws.EncodeDecode.lookup key
  | remove key => exact Laws.EncodeDecode.remove key
  | cmdReserved key => exact Laws.EncodeDecode.cmdReserved key
  | rd addr wdata => exact Laws.EncodeDecode.rd addr wdata
  | wrInitCapacity wdata => exact Laws.EncodeDecode.wrInitCapacity wdata
  | wrGrowThr wdata => exact Laws.EncodeDecode.wrGrowThr wdata
  | wrShrinkThr wdata => exact Laws.EncodeDecode.wrShrinkThr wdata
  | wrHtIndex wdata => exact Laws.EncodeDecode.wrHtIndex wdata
  | wrHtData wdata => exact Laws.EncodeDecode.wrHtData wdata
  | wrCtrl wdata => exact Laws.EncodeDecode.wrCtrl wdata
  | start => exact Laws.EncodeDecode.start
  | softReset => exact Laws.EncodeDecode.softReset
  | compactNow => exact Laws.EncodeDecode.compactNow
  | wrSlotIndex wdata => exact Laws.EncodeDecode.wrSlotIndex wdata
  | wrRefused01 wdata => exact Laws.EncodeDecode.wrRefused01 wdata
  | wrRefused02 low wdata => exact Laws.EncodeDecode.wrRefused02 low wdata
  | wrRefused07 wdata => exact Laws.EncodeDecode.wrRefused07 wdata
  | wrRefused08 low wdata => exact Laws.EncodeDecode.wrRefused08 low wdata
  | wrRefused0A wdata => exact Laws.EncodeDecode.wrRefused0A wdata
  | wrRefused0E low wdata => exact Laws.EncodeDecode.wrRefused0E low wdata
  | wrRefused10 low wdata => exact Laws.EncodeDecode.wrRefused10 low wdata
  | wrRefused20 low wdata => exact Laws.EncodeDecode.wrRefused20 low wdata
  | wrRefused40 low wdata => exact Laws.EncodeDecode.wrRefused40 low wdata
  | wrRefused80 low wdata => exact Laws.EncodeDecode.wrRefused80 low wdata
  | hash _ | probeFree _ _ _ | probeKey _ _ _ | grow | shrink | rebuild _ | compact =>
    exact Laws.EncodeDecode.of_none rfl

/-! ### A word is its fields joined -/

/-- Two neighbouring fields of a word joined. -/
theorem append_extract {w m i j k : Nat} (x : BitVec w) (h : j = i + k) :
    x.extractLsb' j m ++ x.extractLsb' i k = x.extractLsb' i (m + k) :=
  BitVec.extractLsb'_append_extractLsb'_eq_extractLsb' h

/-- A command word is its OP and its KEY (30_encoding.md R303). -/
theorem cmdWord_fields (w : CmdWord) : cmdWord (w.extractLsb' 64 2) (w.extractLsb' 0 64) = w :=
  (append_extract w rfl).trans BitVec.extractLsb'_eq_self

/-- A one-bit field is its bit. -/
theorem ofBool_getLsbD {n : Nat} (x : BitVec n) (i : Nat) :
    BitVec.ofBool (x.getLsbD i) = x.extractLsb' i 1 := by
  apply BitVec.eq_of_getLsbD_eq
  intro j hj
  obtain rfl : j = 0 := by omega
  simp

/-- A register request word is its WE, ADDR and WDATA (30_encoding.md R308). -/
theorem regWord_fields (w : RegWord) :
    regWord (w.getLsbD 72) (w.extractLsb' 64 8) (w.extractLsb' 0 64) = w :=
  calc BitVec.ofBool (w.getLsbD 72) ++ w.extractLsb' 64 8 ++ w.extractLsb' 0 64
    _ = w.extractLsb' 64 9 ++ w.extractLsb' 0 64 := by
      rw [ofBool_getLsbD, append_extract w (m := 1) (k := 8) rfl]
    _ = w := (append_extract w rfl).trans BitVec.extractLsb'_eq_self

/-- A word whose high part is `hi` is `hi` joined with its low part. -/
theorem append_extract_low {n m : Nat} {a : BitVec (n + m)} {hi : BitVec n}
    (h : a.toNat / 2 ^ m = hi.toNat) : hi ++ a.extractLsb' 0 m = a := by
  have hhi : hi = a.extractLsb' m n := BitVec.eq_of_toNat_eq <| by
    rw [BitVec.extractLsb'_toNat, Nat.shiftRight_eq_div_pow, h, Nat.mod_eq_of_lt hi.isLt]
  rw [hhi, append_extract a (Nat.zero_add m).symm, BitVec.extractLsb'_eq_self]

/-! ### The rows of a write -/

/-- The mnemonic the opcode map gives a write (30_encoding.md R315). -/
def writeMnemonic (a : BitVec 8) (d : Word64) : String :=
  if a = 0x04 ∨ a = 0x05 ∨ a = 0x06 ∨ a = 0x0B then "WR_CFG"
  else if a = 0x0C then "WR_HT_DATA"
  else if a = 0x0D then "WR_SLOT_INDEX"
  else if a = 0x00 then
    if d = 0x1 then "START" else if d = 0x2 then "SOFT_RESET"
    else if d = 0x4 then "COMPACT_NOW" else "WR_CTRL"
  else "WR_REFUSED"

/-- From 0x10 on every index is refused. -/
theorem writeMnemonic_high {a : BitVec 8} (h : 0x10 ≤ a.toNat) (d : Word64) :
    writeMnemonic a d = "WR_REFUSED" := by
  have hne {b : BitVec 8} (hb : b.toNat < 0x10) : a ≠ b := by rintro rfl; omega
  simp (disch := decide) only [writeMnemonic, hne, or_self, if_false]

/-- `i` is the operation of the write of `d` at index `a`: well-formed, with that word and the
mnemonic of the opcode map. -/
structure IsWriteRow (a : BitVec 8) (d : Word64) (i : Instr) : Prop where
  wellFormed : i.wellFormed = true
  encode_eq : encode i = some (.reg (regWord true a d))
  mnemonic_eq : i.mnemonic = writeMnemonic a d

/-- A CTRL write is an action, or WR_CTRL with none of the three action values
(44_register_ops.md R804). -/
theorem decodeCtrl_isWriteRow (d : Word64) : IsWriteRow 0 d (decodeCtrl d) := by
  have hmn : writeMnemonic 0 d = if d = 1 then "START" else if d = 2 then "SOFT_RESET"
      else if d = 4 then "COMPACT_NOW" else "WR_CTRL" := rfl
  unfold decodeCtrl
  split_ifs with hstart hreset hcompact
  · subst hstart; exact ⟨rfl, rfl, rfl⟩
  · subst hreset; exact ⟨rfl, rfl, rfl⟩
  · subst hcompact; exact ⟨rfl, rfl, rfl⟩
  · refine ⟨?_, rfl, ?_⟩
    · rw [Instr.wellFormed, isCtrlAction, beq_false_of_ne hstart, beq_false_of_ne hreset,
        beq_false_of_ne hcompact]
      rfl
    · rw [hmn, if_neg hstart, if_neg hreset, if_neg hcompact]
      rfl

/-- An index below 0x10 has a row of its own, or is one of the two of its row. -/
theorem decodeWrite_low_isWriteRow {a : BitVec 8} (h : a.toNat < 0x10) (d : Word64) :
    IsWriteRow a d (decodeWrite a d) := by
  obtain ⟨n, hn, rfl⟩ : ∃ n < 0x10, a = BitVec.ofNat 8 n := ⟨a.toNat, h, by simp⟩
  interval_cases n
  · exact decodeCtrl_isWriteRow d
  all_goals exact ⟨rfl, rfl, rfl⟩

/-- A refused write from 0x10 on whose word has an index equal to `a`. -/
theorem isWriteRow_refused {a b : BitVec 8} {d : Word64} {i : Instr} (h : 0x10 ≤ a.toNat)
    (hwf : i.wellFormed = true) (hmn : i.mnemonic = "WR_REFUSED")
    (hencode : encode i = some (.reg (regWord true b d))) (hb : b = a) :
    IsWriteRow a d i :=
  ⟨hwf, hb ▸ hencode, hmn.trans (writeMnemonic_high h d).symm⟩

/-- An index from 0x10 on is the leading bits of its block and the operand of its row. -/
theorem decodeWrite_high_isWriteRow {a : BitVec 8} (h : 0x10 ≤ a.toNat) (d : Word64) :
    IsWriteRow a d (decodeWrite a d) := by
  have hlt := a.isLt
  rw [decodeWrite_high h]
  split_ifs with h20 h40 h80
  · have hblock : a.toNat / 2 ^ 4 = 1 := by omega
    exact isWriteRow_refused h rfl rfl rfl (append_extract_low (n := 4) hblock)
  · have hblock : a.toNat / 2 ^ 5 = 1 := by omega
    exact isWriteRow_refused h rfl rfl rfl (append_extract_low (n := 3) hblock)
  · have hblock : a.toNat / 2 ^ 6 = 1 := by omega
    exact isWriteRow_refused h rfl rfl rfl (append_extract_low (n := 2) hblock)
  · have hblock : a.toNat / 2 ^ 7 = 1 := by omega
    exact isWriteRow_refused h rfl rfl rfl (append_extract_low (n := 1) hblock)

/-- The indices of the rows are a partition of all (30_encoding.md R315). -/
theorem decodeWrite_isWriteRow (a : BitVec 8) (d : Word64) : IsWriteRow a d (decodeWrite a d) :=
  (Nat.lt_or_ge a.toNat 0x10).elim (decodeWrite_low_isWriteRow · d)
    (decodeWrite_high_isWriteRow · d)

/-- Settles O12: a word is its fields joined, and its OP, or its WE and ADDR, select one row. -/
theorem encodeOfDecode : Obligations.EncodeOfDecode := by
  intro w
  cases w with
  | cmd w =>
    rw [← cmdWord_fields w]
    generalize w.extractLsb' 64 2 = op, w.extractLsb' 0 64 = key
    rw [decode, decodeCmd_cmdWord]
    match op with
    | 0 | 1 | 2 | 3 => exact ⟨rfl, rfl⟩
  | reg w =>
    rw [← regWord_fields w]
    generalize w.getLsbD 72 = we, w.extractLsb' 64 8 = a, w.extractLsb' 0 64 = d
    rw [decode, decodeReg_regWord]
    cases we with
    | false => exact ⟨rfl, rfl⟩
    | true =>
      have hrow := decodeWrite_isWriteRow a d
      exact ⟨hrow.wellFormed, hrow.encode_eq⟩

/-- Settles O13: OP, WE and ADDR of the word select the row, and for CTRL its WDATA. -/
theorem wordsFollowTheOpcodeMap : Obligations.WordsFollowTheOpcodeMap := by
  refine ⟨fun k => ?_, fun a d => ⟨?_, ?_⟩⟩
  · have mnemonic (op : BitVec 2) := congrArg Instr.mnemonic (decodeCmd_cmdWord op k)
    exact ⟨mnemonic 0b00, mnemonic 0b01, mnemonic 0b10, mnemonic 0b11⟩
  · exact congrArg Instr.mnemonic (decodeReg_regWord false a d)
  · exact (congrArg Instr.mnemonic (decodeReg_regWord true a d)).trans
      (decodeWrite_isWriteRow a d).mnemonic_eq

/-- Settles O14: each word is a literal. -/
theorem specWordsDecode : Obligations.SpecWordsDecode := by
  unfold Obligations.SpecWordsDecode
  and_intros <;> rfl

end Sys2Proof
end

section
/-! The statements on the response port and on commands that wait (30_encoding.md R302 to R306). -/

namespace Sys2Proof.Machine

variable {s t : State}

/-! ### Layout of a response -/

/-- A field above the low part of a concatenation. -/
theorem extract_above {n m k : Nat} (a : BitVec n) (b : BitVec m) (i : Nat) :
    (a ++ b).extractLsb' (m + i) k = a.extractLsb' i k := by
  rw [BitVec.extractLsb'_append_eq_of_le (Nat.le_add_right m i), Nat.add_sub_cancel_left]

/-- The field next above the low part of a concatenation. -/
theorem extract_second {n m k : Nat} (a : BitVec n) (f : BitVec k) (b : BitVec m) :
    (a ++ f ++ b).extractLsb' m k = f :=
  (extract_above (a ++ f) b 0).trans (extract_low a f)

/-- The three event bits and the reserved bit above them (30_encoding.md R306). -/
def Events.nibble (ev : Events) : BitVec 4 :=
  0#1 ++ BitVec.ofBool ev.grow ++ BitVec.ofBool ev.shrink ++ BitVec.ofBool ev.compact

theorem nibble_bits (ev : Events) :
    ev.nibble.getLsbD 0 = ev.compact ∧ ev.nibble.getLsbD 1 = ev.shrink
      ∧ ev.nibble.getLsbD 2 = ev.grow ∧ ev.nibble.getLsbD 3 = false := by
  obtain ⟨compact, shrink, grow⟩ := ev
  revert compact shrink grow
  decide

theorem lowByte_eq (r : Response) : r.lowByte = r.ev.nibble ++ r.status.code ++ r.op := rfl

/-- A field of the low byte (30_encoding.md R306). -/
theorem pack_lowField (r : Response) {i k : Nat} (h : i + k ≤ 8) :
    r.pack.extractLsb' i k = r.lowByte.extractLsb' i k :=
  BitVec.extractLsb'_append_eq_of_add_le h

/-- Bits 4 to 7 are those of the events. -/
theorem pack_eventBit (r : Response) {i : Nat} (h : i < 4) :
    r.pack.getLsbD (4 + i) = r.ev.nibble.getLsbD i :=
  calc r.pack.getLsbD (4 + i)
    _ = r.lowByte.getLsbD (4 + i) := append_bit_low _ _ (by omega)
    _ = r.lowByte.getLsbD (2 + (2 + i)) := by rw [← Nat.add_assoc]
    _ = (r.ev.nibble ++ r.status.code).getLsbD (2 + i) := append_bit_high _ _ _
    _ = r.ev.nibble.getLsbD i := append_bit_high _ _ _

/-- Settles O15: a field is found by passing the fields below it. -/
theorem rspDataLayout : Obligations.RspDataLayout := by
  intro r
  obtain ⟨hcompact, hshrink, hgrow, hreserved⟩ := nibble_bits r.ev
  have bit {i : Nat} {b : Bool} (h : i < 4) (hb : r.ev.nibble.getLsbD i = b) :
      r.pack.getLsbD (4 + i) = b := (pack_eventBit r h).trans hb
  refine ⟨?op, ?status, bit (by decide) hcompact, bit (by decide) hshrink, bit (by decide) hgrow,
    bit (by decide) hreserved, ?pos, ?home, ?capAfter, ?hash, ?key⟩
  case op => exact (pack_lowField r (by decide)).trans (extract_low _ _)
  case status =>
    rw [pack_lowField r (by decide), lowByte_eq]
    refine (extract_second _ r.status.code _).trans ?_
    cases r.status <;> rfl
  case pos => exact extract_second _ _ _
  case home => exact (extract_above _ _ 32).trans (extract_second _ _ _)
  case capAfter =>
    exact (extract_above _ _ 64).trans <| (extract_above _ _ 32).trans (extract_second _ _ _)
  case hash =>
    exact (extract_above _ _ 96).trans <| (extract_above _ _ 64).trans <|
      (extract_above _ _ 32).trans (extract_second _ _ _)
  case key =>
    exact (extract_above _ _ 160).trans <| (extract_above _ _ 128).trans <|
      (extract_above _ _ 96).trans <| (extract_above _ _ 64).trans (extract_high _ _)

/-! ### Commands that wait -/

/-- A command at an engine that accepts none waits (30_encoding.md R302, log entry 18). -/
theorem onCommandPort_waits (h : s.acceptsCommand = false) (run : State → State) :
    onCommandPort s run = .next s := by simp [onCommandPort, h]

/-- The three causes for which a command waits. -/
theorem acceptsCommand_eq_false_iff :
    s.acceptsCommand = false ↔ s.mode ≠ .run ∨ s.dp.fsm ≠ .idle ∨ s.rspPending = true := by
  rw [← Bool.not_eq_true, acceptsCommand_iff, not_and_or, not_and_or, Bool.not_eq_false]

/-- Settles O17: `cmd_ready` is what the command port asks for, with no register request. -/
theorem commandsWaitForCmdReady : Obligations.CommandsWaitForCmdReady := by
  refine ⟨fun s => ?_, fun k s h => ?_⟩
  · calc s.outputs.cmdReady = true
      _ ↔ s.acceptsCommand = true ∧ s.pins.reg = none := by simp [State.outputs]
      _ ↔ _ := by rw [acceptsCommand_iff, and_assoc, and_assoc]
  · have hwaits := onCommandPort_waits (acceptsCommand_eq_false_iff.2 h)
    exact ⟨hwaits (runInsert k), hwaits (runLookup k), hwaits (runRemove k), hwaits (runReserved k)⟩

/-! ### The pending response -/

/-- RSP_PENDING and RSP are the same in both states. -/
def SameResponse (s t : State) : Prop := t.rspPending = s.rspPending ∧ t.rsp = s.rsp

theorem SameButTable.sameResponse (h : SameButTable s t) : SameResponse s t := by
  rw [h]; exact ⟨rfl, rfl⟩

theorem SameButWork.sameResponse (h : SameButWork s t) : SameResponse s t := by
  rw [h]; exact ⟨rfl, rfl⟩

/-- Of the register transactions only SOFT_RESET touches the response, which it drops
(44_register_ops.md R806, R807). -/
theorem registerEffect_response {i : Instr} (h : RegisterEffect i s t) :
    SameResponse s t ∨ (i = .softReset ∧ t.rspPending = false) := by
  cases h with
  | update _ h => obtain ⟨he, -⟩ := h; rw [he]; exact .inl ⟨rfl, rfl⟩
  | start _ _ => exact .inl ⟨rfl, rfl⟩
  | softReset hi => exact .inr ⟨hi, rfl⟩
  | compactNow _ => exact .inl (sameButTable_compactTable s).sameResponse

theorem exec_register_response {w : RegWord} (hb : s.busy = false)
    (h : exec (decodeReg w) s = .next t) :
    SameResponse s t ∨ (decodeReg w = .softReset ∧ t.rspPending = false) :=
  registerEffect_response (exec_register_effect (decodeReg_isRegisterRow w) hb h)

/-- A command word waits while a response is pending. -/
theorem exec_command_pending {w : CmdWord} (hp : s.rspPending = true)
    (h : exec (decodeCmd w) s = .next t) : t = s := by
  have hwaits : s.acceptsCommand = false := acceptsCommand_eq_false_iff.2 (.inr (.inr hp))
  obtain ⟨key, hi | hi | hi | hi⟩ := decodeCmd_cases w
  all_goals
    rw [hi] at h
    cases (onCommandPort_waits hwaits _).symm.trans h
    rfl

/-- Of the micro-steps only RESPOND, which ends a command, touches the response. -/
theorem microEffect_response (h : MicroEffect s t) (hfsm : s.dp.fsm ≠ .respond) :
    SameResponse s t := by
  cases h with
  | works _ h => exact h.sameResponse
  | faults _ _ _ u hu | replies u hu | starts u hu => exact hu.sameResponse
  | responds _ h => exact absurd h hfsm

/-- An edge at an idle engine at which the response transfers. -/
theorem step_idle_transfers (hb : s.busy = false) (hrst : s.pins.rst = false)
    (htr : s.transfersResponse = true) (h : step s = .next t) : t.rspPending = false := by
  cases hreg : s.pins.reg with
  | none =>
    rw [step_handOver hrst hb hreg htr] at h
    cases h; rfl
  | some w =>
    rcases step_register_handOver hrst hb hreg htr with e | e
    · rw [e] at h
      rcases exec_register_response (s := handOver s.advance.nextFree) hb h with
        ⟨hpending, -⟩ | ⟨-, hpending⟩
      · exact hpending
      · exact hpending
    · rw [e] at h
      obtain ⟨v, -, rfl⟩ := andThen_next h
      rfl

/-- An edge at an idle engine at which a pending response does not transfer. -/
theorem step_idle_keeps (hb : s.busy = false) (hrst : s.pins.rst = false)
    (hp : s.rspPending = true) (htr : s.transfersResponse = false)
    (hsoft : ∀ w, s.pins.reg = some w → decodeReg w ≠ .softReset) (h : step s = .next t) :
    SameResponse s t := by
  cases hreg : s.pins.reg with
  | some w =>
    rw [step_register hrst hb hreg htr] at h
    exact (exec_register_response (s := s.advance) hb h).resolve_right
      fun ⟨hi, _⟩ => hsoft w hreg hi
  | none =>
    cases hcmd : s.pins.cmd with
    | some w =>
      rw [step_command hrst hb hreg htr hcmd] at h
      rw [exec_command_pending (s := s.advance) hp h]
      exact ⟨rfl, rfl⟩
    | none =>
      rw [step_nothing hrst hb hreg htr hcmd] at h
      cases h
      exact ⟨rfl, rfl⟩

/-- An edge at a busy engine, but in RESPOND: the response port alone touches the response. -/
theorem step_busy_response (hb : s.busy = true) (hrst : s.pins.rst = false)
    (hfsm : s.dp.fsm ≠ .respond) (h : step s = .next t) : SameResponse (takeResponse s) t := by
  rw [step_micro hrst hb] at h
  unfold microEdge at h
  split at h
  · cases h
    exact microEffect_response (s := (takeResponse s).advance) (microStep_effect _) (by simpa)
  · cases h

/-- Settles O18: at an idle engine the transactions of the edge, at a busy one the micro-step. -/
theorem pendingResponseIsKept : Obligations.PendingResponseIsKept := by
  intro s
  refine ⟨rfl, rfl, fun hp hfsm t h => ?_⟩
  have htr : s.transfersResponse = s.pins.rspReady := by simp [State.transfersResponse, hp]
  have hrespond : s.dp.fsm ≠ .respond := by
    rcases hfsm with e | e | e | e <;> simp [e]
  cases hb : s.busy with
  | false =>
    refine ⟨fun hrst hready => step_idle_transfers hb hrst (htr.trans hready) h,
      fun hrst hready hsoft => ?_⟩
    obtain ⟨hpending, hrsp⟩ := step_idle_keeps hb hrst hp (htr.trans hready)
      (hsoft (busy_eq_false_iff.1 hb)) h
    exact ⟨hpending.trans hp, hrsp⟩
  | true =>
    have hstep (hrst : s.pins.rst = false) := step_busy_response hb hrst hrespond h
    refine ⟨fun hrst hready => ?_, fun hrst hready _ => ?_⟩
    · obtain ⟨hpending, -⟩ := hstep hrst
      simpa [hready] using hpending
    · obtain ⟨hpending, hrsp⟩ := hstep hrst
      exact ⟨by simpa [hp, hready] using hpending, by simpa using hrsp⟩

end Sys2Proof.Machine
end

section
/-! The statements on the hash (40_hash_engine.md R404, R408) and on HASH, PROBE_FREE and PROBE_KEY
run on their own (41_probe_cam.md R503, R504). -/

namespace Sys2Proof.Machine

variable {s : State}

/-! ### Lanes of the hash -/

/-- The linear index t*256 + v (30_encoding.md R312). -/
theorem tableIndex_toNat (t : BitVec 3) (v : BitVec 8) :
    (tableIndex t v).toNat = t.toNat * 256 + v.toNat := by
  unfold tableIndex
  rw [BitVec.toNat_append, ← Nat.shiftLeft_add_eq_or_of_lt v.isLt, Nat.shiftLeft_eq]

theorem htWritten_of_tablesComplete (h : s.tablesComplete = true) (i : TableIndex) :
    s.htWritten i = true := by
  have hall : s.htw = BitVec.allOnes 2048 := eq_of_beq h
  rw [State.htWritten, hall, BitVec.getLsbD_allOnes]
  exact decide_eq_true i.isLt

/-- On complete tables no lane meets a free value. -/
theorem lane_of_tablesComplete (h : s.tablesComplete = true) (k : Word64) {i : Nat} (hi : i < 8) :
    s.lane k i = Memory.read 0 s.ht (i * 256 + (keyByte k i).toNat) := by
  unfold State.lane State.tabRead
  rw [if_pos (htWritten_of_tablesComplete h _), tableIndex_toNat, BitVec.toNat_ofNat,
    Nat.mod_eq_of_lt hi]

/-- A lane looks at its own byte of the key only. -/
theorem lane_congr (s : State) {k1 k2 : Word64} {i : Nat} (h : keyByte k1 i = keyByte k2 i) :
    s.lane k1 i = s.lane k2 i := by
  unfold State.lane
  rw [h]

/-- The XOR of two hashes, lane by lane. -/
theorem hash64_xor_hash64 (s : State) (k1 k2 : Word64) :
    s.hash64 k1 ^^^ s.hash64 k2
      = (List.range 8).foldl (fun acc i => acc ^^^ (s.lane k1 i ^^^ s.lane k2 i)) 0 :=
  (List.foldl_hom₂ (List.range 8) (· ^^^ ·) _ _ _ 0 0 fun _ _ _ => by ac_rfl).symm

/-- Settles O20: the hash is the XOR of the eight lanes, and on complete tables each is an entry of
HT. -/
theorem hashIsTheXorOfEightEntries : Obligations.HashIsTheXorOfEightEntries := by
  intro k s h
  simp only [hash64_eq, lane_of_tablesComplete h k, Nat.reduceLT]
  rfl

/-- Settles O21: outside L the two lanes are equal and cancel. -/
theorem hashIsLinearInTheLanes : Obligations.HashIsLinearInTheLanes := by
  intro s k1 k2 L hL
  rw [hash64_xor_hash64]
  refine List.foldl_ext _ _ 0 fun acc i hi => ?_
  by_cases hmem : i ∈ L
  · rw [if_pos hmem]
  · have hsame := lane_congr s (hL i (List.mem_range.1 hi) hmem)
    rw [if_neg hmem, hsame, BitVec.xor_self, BitVec.xor_zero]

/-! ### Outcome of a probe -/

section Probes

variable {m : Memory Slot} {home c off : Nat} {stop : Bool} {k : Word64}

theorem Slot.holds_iff {v : Slot} : v.holds k = true ↔ v = .occupied k := by
  cases v <;> simp [Slot.holds]

theorem endsKeyProbe_eq_false_iff {v : Slot} :
    endsKeyProbe stop k v = false ↔ v.holds k = false ∧ (stop && v.isEmpty) = false :=
  Bool.or_eq_false_iff

theorem probeFree_of_firstAt (h : FirstAt Slot.isEmpty m home c off) :
    probeFree m home c = ⟨some ((home + off) % c), off⟩ := by
  obtain ⟨hoff, hempty, hbefore⟩ := h
  exact probeFrom_eq_found hoff hempty fun o ho => ⟨hbefore o ho, rfl⟩

theorem probeFree_of_nowhereIn (h : NowhereIn Slot.isEmpty m home c) :
    probeFree m home c = ⟨none, c⟩ :=
  probeFrom_eq_none fun o ho => ⟨h o ho, rfl⟩

/-- A key probe ends at the first slot that ends it, with its position if that slot holds the key. -/
theorem probeKey_of_firstAt (h : FirstAt (endsKeyProbe stop k) m home c off) :
    probeKey stop m home c k
      = ⟨if probedSlot m home c off = .occupied k then some ((home + off) % c) else none, off⟩ := by
  obtain ⟨hoff, hends, hbefore⟩ := h
  have hpassed (o : Nat) (ho : o < off) := endsKeyProbe_eq_false_iff.1 (hbefore o ho)
  by_cases hkey : probedSlot m home c off = .occupied k
  · rw [if_pos hkey]
    exact probeFrom_eq_found hoff (Slot.holds_iff.2 hkey) hpassed
  · have hmiss : (probedSlot m home c off).holds k = false :=
      Bool.eq_false_iff.2 (hkey ∘ Slot.holds_iff.1)
    have hstop : (stop && (probedSlot m home c off).isEmpty) = true := by
      simpa [endsKeyProbe, hmiss] using hends
    rw [if_neg hkey]
    exact probeFrom_eq_stopped hoff hmiss hstop hpassed

theorem probeKey_of_nowhereIn (h : NowhereIn (endsKeyProbe stop k) m home c) :
    probeKey stop m home c k = ⟨none, c⟩ :=
  probeFrom_eq_none fun o ho => endsKeyProbe_eq_false_iff.1 (h o ho)

end Probes

/-! ### Operations that only read -/

theorem probeLegal_iff {home cap : Word32} : s.probeLegal home cap = true ↔
    1 ≤ cap.toNat ∧ cap.toNat ≤ s.capMax ∧ home.toNat < cap.toNat := by
  simp [State.probeLegal, and_assoc]

theorem exec_probeFree {home cap : Word32} (h : s.probeLegal home cap = true) (b : BitVec 1) :
    exec (.probeFree b home cap) s
      = .next (latchProbe (probeFree (s.bank b) home.toNat cap.toNat) s) :=
  if_pos h

theorem exec_probeKey {home cap : Word32} (h : s.probeLegal home cap = true) (k : Word64) :
    exec (.probeKey home cap k) s
      = .next (latchProbe (probeKey s.lookupEmptyStop s.table home.toNat cap.toNat k) s) :=
  if_pos h

/-- What a probe that examined all `cap` slots leaves in the output registers. -/
theorem latchProbe_none (s : State) (cap : Word32) :
    latchProbe ⟨none, cap.toNat⟩ s = { s with dp := { s.dp with found := none, off := cap } } := by
  simp [latchProbe]

/-- Settles O22: a probe with legal operands latches its result, which its first ending slot fixes. -/
theorem hashAndProbesLatchTheirResult : Obligations.HashAndProbesLatchTheirResult := by
  refine ⟨fun _ _ => rfl, fun b home cap s h1 hmax hhome => ?free,
    fun home cap k s h1 hmax hhome => ?key⟩
  case free =>
    have hexec := exec_probeFree (probeLegal_iff.2 ⟨h1, hmax, hhome⟩) b
    refine ⟨fun off hfirst => ?_, fun hnone => ?_⟩
    · rw [hexec, probeFree_of_firstAt hfirst]
      rfl
    · rw [hexec, probeFree_of_nowhereIn hnone, latchProbe_none]
  case key =>
    have hexec := exec_probeKey (probeLegal_iff.2 ⟨h1, hmax, hhome⟩) k
    refine ⟨fun off hfirst => ?_, fun hnone => ?_⟩
    · rw [hexec, probeKey_of_firstAt hfirst, latchProbe, apply_ite (Option.map _)]
      rfl
    · rw [hexec, probeKey_of_nowhereIn hnone, latchProbe_none]

end Sys2Proof.Machine
end

section
/-! The statements on what the probes find (41_probe_cam.md R501 to R504, R506). -/

namespace Sys2Proof.Machine

/-! ### First slots of the probe order -/

section ProbeOrder

variable {q : Slot → Bool} {m : Memory Slot} {home c off p : Nat} {stop : Bool} {k : Word64}

theorem FirstAt.probedSlot_ends (h : FirstAt q m home c off) : q (probedSlot m home c off) = true := by
  obtain ⟨-, hq, -⟩ := h
  exact hq

theorem firstAt_or_nowhereIn (q : Slot → Bool) (m : Memory Slot) (home c : Nat) :
    (∃ off, FirstAt q m home c off) ∨ NowhereIn q m home c := by
  by_cases hex : ∃ o, o < c ∧ q (probedSlot m home c o) = true
  · obtain ⟨hlt, hq⟩ := Nat.find_spec hex
    refine .inl ⟨Nat.find hex, hlt, hq, fun o ho => Bool.eq_false_iff.2 fun hqo => ?_⟩
    exact Nat.find_min hex ho ⟨by omega, hqo⟩
  · exact .inr fun o ho => Bool.eq_false_iff.2 fun hqo => hex ⟨o, ho, hqo⟩

/-- The probe order passes every slot of the table, from whatever home index. -/
theorem nowhereIn_iff : NowhereIn q m home c ↔ ∀ i < c, q (Memory.read .empty m i) = false := by
  constructor
  · intro h i hi
    obtain ⟨o, ho, rfl⟩ := exists_offset home hi
    exact h o ho
  · exact fun h o ho => h _ (Nat.mod_lt _ (by omega))

/-! ### Outcomes of a probe as an equivalence -/

theorem probeFree_found_iff : (probeFree m home c).found = some p ↔
    ∃ off, FirstAt Slot.isEmpty m home c off ∧ p = (home + off) % c := by
  constructor
  · intro h
    rcases firstAt_or_nowhereIn Slot.isEmpty m home c with ⟨off, hfirst⟩ | hnone
    · rw [probeFree_of_firstAt hfirst] at h
      exact ⟨off, hfirst, (Option.some.inj h).symm⟩
    · rw [probeFree_of_nowhereIn hnone] at h
      cases h
  · rintro ⟨off, hfirst, rfl⟩
    rw [probeFree_of_firstAt hfirst]

/-- A slot that ends a key probe without holding the key is Empty. -/
theorem eq_empty_of_endsKeyProbe {v : Slot} (h : endsKeyProbe stop k v = true)
    (hkey : v ≠ .occupied k) : v = .empty := by
  rcases Bool.or_eq_true_iff.1 h with hholds | hstops
  · exact absurd (Slot.holds_iff.1 hholds) hkey
  · exact Slot.isEmpty_iff.1 (Bool.and_eq_true_iff.1 hstops).2

theorem probeKey_found_iff : (probeKey stop m home c k).found = some p ↔
    ∃ off, FirstAt (endsKeyProbe stop k) m home c off ∧ p = (home + off) % c
      ∧ Memory.read .empty m p = .occupied k := by
  constructor
  · intro h
    have hkey := probeKey_reads_key h
    rcases firstAt_or_nowhereIn (endsKeyProbe stop k) m home c with ⟨off, hfirst⟩ | hnone
    · rw [probeKey_of_firstAt hfirst] at h
      obtain ⟨-, hpos⟩ := Option.ite_none_right_eq_some.1 h
      exact ⟨off, hfirst, (Option.some.inj hpos).symm, hkey⟩
    · rw [probeKey_of_nowhereIn hnone] at h
      cases h
  · rintro ⟨off, hfirst, rfl, hkey⟩
    rw [probeKey_of_firstAt hfirst, if_pos hkey]

theorem probeKey_none_iff : (probeKey stop m home c k).found = none ↔
    NowhereIn (endsKeyProbe stop k) m home c
      ∨ ∃ off, FirstAt (endsKeyProbe stop k) m home c off ∧ probedSlot m home c off = .empty := by
  constructor
  · intro h
    rcases firstAt_or_nowhereIn (endsKeyProbe stop k) m home c with ⟨off, hfirst⟩ | hnone
    · have hmiss : probedSlot m home c off ≠ .occupied k := fun hkey => by
        rw [probeKey_of_firstAt hfirst, if_pos hkey] at h
        cases h
      exact .inr ⟨off, hfirst, eq_empty_of_endsKeyProbe hfirst.probedSlot_ends hmiss⟩
    · exact .inl hnone
  · rintro (hnone | ⟨off, hfirst, hempty⟩)
    · rw [probeKey_of_nowhereIn hnone]
    · rw [probeKey_of_firstAt hfirst, if_neg (by simp [hempty])]

/-- A build that does not stop at Empty slots misses a key exactly when no slot holds it
(41_probe_cam.md R506). -/
theorem probeKey_false_none_iff : (probeKey false m home c k).found = none ↔
    ∀ i < c, Memory.read .empty m i ≠ .occupied k := by
  have hends (v : Slot) : endsKeyProbe false k v = false ↔ v ≠ .occupied k := by
    rw [endsKeyProbe_eq_false_iff, ← Bool.not_eq_true, Slot.holds_iff]
    simp
  have hnever (off : Nat) (hfirst : FirstAt (endsKeyProbe false k) m home c off) :
      probedSlot m home c off ≠ .empty := fun hempty => by
    have hq := hfirst.probedSlot_ends
    rw [hempty] at hq
    cases hq
  calc (probeKey false m home c k).found = none
      ↔ NowhereIn (endsKeyProbe false k) m home c := by
        rw [probeKey_none_iff, or_iff_left fun ⟨off, hfirst, hempty⟩ => hnever off hfirst hempty]
    _ ↔ ∀ i < c, Memory.read .empty m i ≠ .occupied k := by
        simp only [nowhereIn_iff, hends]

end ProbeOrder

/-- Settles O23: every probe reads what it reports, and a build that does not stop at Empty slots
examines the whole table. -/
theorem foundPositionHoldsTheKey : Obligations.FoundPositionHoldsTheKey := by
  intro m home c p k
  exact ⟨fun stop => probeKey_reads_key, probeFree_reads_empty, fun _ => probeKey_false_none_iff⟩

/-! ### The probes of a command -/

section CommandProbes

variable {s : State} {k : Word64} {p : Nat}

theorem keySlot_eq_some_iff : s.keySlot k = some p ↔ KeyFoundAt s k p := probeKey_found_iff

theorem keySlot_eq_none_iff : s.keySlot k = none ↔ KeyNotFound s k := probeKey_none_iff

theorem freeSlot_eq_some_iff : s.freeSlot k = some p ↔ EmptyFoundAt s k p := probeFree_found_iff

theorem freeSlot_eq_none_iff : s.freeSlot k = none ↔ NoEmptySlot s := probeFree_none_iff

theorem exists_keyFoundAt_iff : (∃ p, KeyFoundAt s k p) ↔ ¬ KeyNotFound s k := by
  simp only [← keySlot_eq_some_iff, ← keySlot_eq_none_iff, ← ne_eq, Option.ne_none_iff_exists']

theorem exists_emptyFoundAt_iff : (∃ p, EmptyFoundAt s k p) ↔ ¬ NoEmptySlot s := by
  simp only [← freeSlot_eq_some_iff (k := k), ← freeSlot_eq_none_iff (k := k), ← ne_eq,
    Option.ne_none_iff_exists']

theorem KeyFoundAt.unique {p q : Nat} (hp : KeyFoundAt s k p) (hq : KeyFoundAt s k q) : p = q :=
  Option.some.inj ((keySlot_eq_some_iff.2 hp).symm.trans (keySlot_eq_some_iff.2 hq))

theorem EmptyFoundAt.unique {p q : Nat} (hp : EmptyFoundAt s k p) (hq : EmptyFoundAt s k q) :
    p = q :=
  Option.some.inj ((freeSlot_eq_some_iff.2 hp).symm.trans (freeSlot_eq_some_iff.2 hq))

end CommandProbes

/-- Settles O24: a probe is a function, so its outcomes exclude each other and leave nothing out. -/
theorem everyProbeHasOneOutcome : Obligations.EveryProbeHasOneOutcome := by
  intro k s _
  exact ⟨fun p => keySlot_eq_some_iff, keySlot_eq_none_iff,
    fun p => freeSlot_eq_some_iff, freeSlot_eq_none_iff,
    exists_keyFoundAt_iff, exists_emptyFoundAt_iff,
    fun p q => KeyFoundAt.unique, fun p q => EmptyFoundAt.unique⟩

end Sys2Proof.Machine
end

section
/-! SUPPORT. What LOOKUP, REMOVE and INSERT write and answer, by the slots they find; how the sequences
after a slot write see the table it leaves (42_commands.md R601 to R604, 43_sequencer.md R700 to
R705). -/

namespace Sys2Proof.Machine

variable {s t : State} {k : Word64} {p : Nat}

/-! ### The response of a key probe -/

theorem probeResponse_found (h : KeyFoundAt s k p) (op : BitVec 2) :
    probeResponse op k s
      = { op := op, status := .ok, ev := Events.none, pos := BitVec.ofNat 32 p,
          home := BitVec.ofNat 32 (s.homeIndex k), capAfter := s.capacity, hash := s.hash64 k,
          key := k } := by
  have hslot : s.keySlot k = some p := keySlot_eq_some_iff.2 h
  simp only [probeResponse, hslot]
  rfl

theorem probeResponse_notFound (h : KeyNotFound s k) (op : BitVec 2) :
    probeResponse op k s
      = { op := op, status := .notFound, ev := Events.none, pos := notFoundPos,
          home := BitVec.ofNat 32 (s.homeIndex k), capAfter := s.capacity, hash := s.hash64 k,
          key := k } := by
  have hslot : s.keySlot k = none := keySlot_eq_none_iff.2 h
  simp only [probeResponse, hslot]
  rfl

/-- A slot write leaves CAP_AFTER the capacity of before. -/
theorem okResponse_insertSlot (op : BitVec 2) (ev : Events) :
    okResponse op k p s (insertSlot p k s) ev = okResponse op k p s s ev := by
  simp [okResponse]

theorem okResponse_removeSlot (op : BitVec 2) (ev : Events) :
    okResponse op k p s (removeSlot p s) ev = okResponse op k p s s ev := by
  simp [okResponse]

/-! ### One slot written -/

theorem writesSlot_slotWrite (hs : s.storageLegal) (p : Nat) (v : Slot) :
    WritesSlot p v s (s.slotWrite s.active p v) := by
  have hwf := (storageLegal_bank hs s.active).1
  refine ⟨?_, ?_, fun b i hne => ?_⟩
  · unfold State.slotWrite State.setBank
    split <;> rfl
  · rw [State.slotRead, bank_slotWrite_same, Memory.read_write_same hwf.1]
  · rw [State.slotRead, State.slotRead]
    rcases eq_or_ne b s.active with rfl | hb
    · rw [bank_slotWrite_same, Memory.read_write_other (hne.resolve_left (· rfl)).symm]
    · rw [bank_slotWrite_other s hb.symm]

/-! ### The comparators after a slot write -/

/-- CLEAN_THR is a quarter (43_sequencer.md R700). -/
theorem cleanCond_iff : s.cleanCond = true ↔ s.capacity.toNat < 4 * s.removed.toNat := by
  have hthr : Config.cleanThr.toNat = 16384 := rfl
  rw [State.cleanCond, decide_eq_true_iff, hthr]
  omega

theorem growCond_insertSlot (p : Nat) (k : Word64) : (insertSlot p k s).growCond = true
    ↔ s.growThr.toNat * s.capacity.toNat < (s.filled + 1).toNat * 65536 := by
  simp [State.growCond]

theorem cleanCond_removeSlot (p : Nat) : (removeSlot p s).cleanCond = true
    ↔ s.capacity.toNat < 4 * (s.removed + 1).toNat := by
  simp [cleanCond_iff]

theorem shrinkCond_removeSlot (p : Nat) : (removeSlot p s).shrinkCond = true
    ↔ (s.filled - 1).toNat * 65536 < s.shrinkThr.toNat * s.capacity.toNat := by
  simp [State.shrinkCond]

/-! ### Sequences and the datapath registers -/

/-- `s` with other datapath registers: what a sequence run on its own starts from in place of a command's
(log entries 6 and 7). -/
abbrev State.withDatapath (s : State) (d : Datapath) : State := { s with dp := d }

theorem compactTable_withDatapath (d : Datapath) :
    compactTable (s.withDatapath d) = (compactTable s).withDatapath d := by
  unfold compactTable State.setBank
  split <;> rfl

theorem rebuiltBank_withDatapath (d : Datapath) (N : Nat) :
    (s.withDatapath d).rebuiltBank N = s.rebuiltBank N := rfl

theorem commitRebuild_withDatapath (d : Datapath) (N : Nat) :
    commitRebuild N (s.withDatapath d) = (commitRebuild N s).withDatapath d := by
  unfold commitRebuild State.setBank
  split <;> rfl

/-- How a sequence ends that starts with other datapath registers: a fault clears them all the same
(60_exceptions.md R903). -/
def Ran.withDatapath (d : Datapath) : Ran → Ran
  | .done t ev => .done (t.withDatapath d) ev
  | .raised t => .raised t

theorem rebuild_withDatapath (d : Datapath) (op : BitVec 2) (key : Word64) (N : Nat) :
    rebuild op key N (s.withDatapath d) = (rebuild op key N s).withDatapath d := by
  rw [rebuild_eq, rebuild_eq, rebuiltBank_withDatapath, commitRebuild_withDatapath]
  split
  · rfl
  · unfold State.setBank
    split <;> rfl

theorem growTable_withDatapath (d : Datapath) (op : BitVec 2) (key : Word64) :
    growTable op key (s.withDatapath d) = (growTable op key s).withDatapath d := by
  rcases Nat.lt_or_ge s.capMax (2 * s.capacity.toNat) with hover | hfits
  · rw [growTable_overflow hover, growTable_overflow (s := s.withDatapath d) hover]
    rfl
  · rw [growTable_rebuilds hfits, growTable_rebuilds (s := s.withDatapath d) hfits]
    exact rebuild_withDatapath d op key _

/-- How a rebuild ends (43_sequencer.md R707). -/
theorem rebuild_outcome (op : BitVec 2) (key : Word64) (N : Nat) (s : State) :
    (∃ t, SameButTable s t ∧ rebuild op key N s = .done t Events.none)
      ∨ ∃ t, SameButTable s t
        ∧ rebuild op key N s = .raised (raiseFault .shrinkOverflow op key t) := by
  rw [rebuild_eq]
  split
  · exact .inl ⟨_, sameButTable_commitRebuild N s, rfl⟩
  · exact .inr ⟨_, sameButTable_setBank s _ _, rfl⟩

/-- A doubled table has room for every key, so a GROW within CAP_MAX ends (43_sequencer.md R703). -/
theorem growTable_done (hs : s.storageLegal) (hfits : 2 * s.capacity.toNat ≤ s.capMax)
    (op : BitVec 2) (key : Word64) :
    growTable op key s = .done (commitRebuild (2 * s.capacity.toNat) s) Events.none := by
  have hkeys := countSlots_le Slot.isOccupied s.table s.capacity.toNat
  rw [growTable_rebuilds hfits, rebuild_eq, if_pos (rebuiltBank_succeeds hs (by omega))]

/-! ### The cascade of a REMOVE -/

/-- The table a REMOVE's shrink check sees: compacted when clean_cond holds (43_sequencer.md R702). -/
def compactIfDirty (s : State) : State := if s.cleanCond then compactTable s else s

theorem postRemove_eq (key : Word64) (s : State) : postRemove key s
    = shrinkIfLow key ⟨s.cleanCond, false, false⟩ (compactIfDirty s) := by
  unfold compactIfDirty
  rcases postRemove_cases key s with ⟨hc, h⟩ | ⟨hc, h⟩ <;> rw [h, hc] <;> rfl

/-- COMPACT moves slots and clears REMOVED; it leaves the other registers, ACTIVE, CAPACITY and FILLED
among them. -/
theorem compactIfDirty_frame (s : State) : compactIfDirty s
    = { s with bank0 := (compactIfDirty s).bank0, bank1 := (compactIfDirty s).bank1,
               removed := (compactIfDirty s).removed } := by
  unfold compactIfDirty compactTable State.setBank
  split
  · split <;> rfl
  · rfl

theorem exec_compact (h : s.capacityInRange = true) : exec .compact s = .next (compactTable s) :=
  if_pos h

/-- The registers a sequence of the command `op key` finds (43_sequencer.md R705). -/
abbrev commandDatapath (op : BitVec 2) (key : Word64) : Datapath :=
  { Datapath.idle with op := op, key := key }

/-- GROW as an operation is the sequence of an INSERT, the datapath registers aside. -/
theorem exec_grow_of_insert (h : s.capacityInRange = true) (key : Word64) :
    exec .grow (s.withDatapath (commandDatapath opInsert key))
      = .next ((growTable opInsert key s).withDatapath (commandDatapath opInsert key)).state := by
  rw [← growTable_withDatapath]
  exact if_pos h

/-- SHRINK as an operation is the sequence of a REMOVE, the datapath registers aside. -/
theorem exec_shrink_of_remove (h : s.capacityInRange = true) (hlt : 1 < s.capacity.toNat)
    (key : Word64) : exec .shrink (s.withDatapath (commandDatapath opRemove key))
      = .next ((shrinkTable opRemove key s).withDatapath (commandDatapath opRemove key)).state := by
  rw [shrinkTable, ← rebuild_withDatapath]
  exact (if_pos h).trans (congrArg _ (if_pos hlt))

/-- What calls for a shrink after a REMOVE (43_sequencer.md R702, R704). -/
abbrev State.Shrinks (s : State) : Prop := s.shrinkCond = true ∧ 1 < s.capacity.toNat

/-- How a REMOVE's cascade ends beside the operations run on their own: `d` is the state they leave,
`shrinks` whether SHRINK was one of them, `r` the cascade with the datapath registers `dp`
(43_sequencer.md R702, R705). -/
def CascadeEnds (key : Word64) (compacts shrinks : Prop) (dp : Datapath) (d : State) (r : Ran) :
    Prop :=
  (d.mode = .run ∧ ∃ e : Events, (e.compact = true ↔ compacts) ∧ (e.shrink = true ↔ shrinks)
      ∧ e.grow = false ∧ r = .done (d.withDatapath dp) e)
    ∨ (shrinks ∧ r = .raised d ∧ ∃ t, d = raiseFault .shrinkOverflow opRemove key t)

/-- The shrink check of a REMOVE is the operation SHRINK, or nothing (43_sequencer.md R702, R704). -/
theorem shrinkIfLow_eq_exec_shrink (hm : s.mode = .run) (hc : s.capacityInRange = true)
    (key : Word64) (b : Bool) :
    ∃ d, (s.Shrinks → exec .shrink (s.withDatapath (commandDatapath opRemove key)) = .next d)
      ∧ (¬ s.Shrinks → d = s.withDatapath (commandDatapath opRemove key))
      ∧ CascadeEnds key (b = true) s.Shrinks s.dp d (shrinkIfLow key ⟨b, false, false⟩ s) := by
  by_cases hs : s.Shrinks
  · obtain ⟨-, hlt⟩ := id hs
    have hcheck : shrinkIfLow key ⟨b, false, false⟩ s = match shrinkTable opRemove key s with
        | .done t _ => .done t ⟨b, true, false⟩
        | .raised t => .raised t := if_pos (by simpa using hs)
    refine ⟨_, fun _ => exec_shrink_of_remove hc hlt key, absurd hs, ?_⟩
    rw [hcheck, shrinkTable]
    rcases rebuild_outcome opRemove key (s.capacity.toNat / 2) s with ⟨t, ht, h⟩ | ⟨t, ht, h⟩
    · have hdp : t.dp = s.dp := by rw [ht]
      rw [h, ← hdp]
      exact .inl ⟨ht.mode_eq.trans hm, _, .rfl, iff_of_true rfl hs, rfl, rfl⟩
    · rw [h]
      exact .inr ⟨hs, rfl, t, rfl⟩
  · have hcheck : shrinkIfLow key ⟨b, false, false⟩ s = .done s ⟨b, false, false⟩ :=
      if_neg (by simpa using hs)
    refine ⟨_, fun h => absurd h hs, fun _ => rfl, .inl ⟨hm, _, .rfl, ?_, rfl, hcheck⟩⟩
    simp [hs]

/-- The cascade of a REMOVE is COMPACT, then SHRINK, each run where its comparator says
(43_sequencer.md R702). -/
theorem postRemove_eq_exec_cascade (hm : s.mode = .run) (hc : s.capacityInRange = true)
    (key : Word64) :
    ∃ c d, (s.cleanCond = true
          → exec .compact (s.withDatapath (commandDatapath opRemove key)) = .next c)
      ∧ (¬ s.cleanCond = true → c = s.withDatapath (commandDatapath opRemove key))
      ∧ (s.Shrinks → exec .shrink c = .next d) ∧ (¬ s.Shrinks → d = c)
      ∧ CascadeEnds key (s.cleanCond = true) s.Shrinks s.dp d (postRemove key s) := by
  have hframe := compactIfDirty_frame s
  have hshrinks : (compactIfDirty s).Shrinks ↔ s.Shrinks := by rw [hframe]; rfl
  have hdp : (compactIfDirty s).dp = s.dp := by rw [hframe]
  obtain ⟨d, hshrink, hkeep, hend⟩ := shrinkIfLow_eq_exec_shrink (s := compactIfDirty s)
    (by rw [hframe]; exact hm) (by rw [hframe]; exact hc) key s.cleanCond
  rw [hshrinks] at hshrink hkeep hend
  rw [hdp, ← postRemove_eq] at hend
  refine ⟨_, d, fun h => ?_, fun h => ?_, hshrink, hkeep, hend⟩
  · rw [compactIfDirty, if_pos h, ← compactTable_withDatapath]
    exact exec_compact hc
  · rw [compactIfDirty, if_neg h]

end Sys2Proof.Machine
end

section
/-! The statements on LOOKUP, INSERT, REMOVE and the reserved command, one command at a time
(42_commands.md R601 to R605). -/

namespace Sys2Proof.Machine

variable {s t : State}

/-! ### Accepted commands -/

theorem exec_insert_accepted (h : s.Accepting) (k : Word64) :
    exec (.insert k) s = .next (runInsert k s) := accepting_runs h _

theorem exec_lookup_accepted (h : s.Accepting) (k : Word64) :
    exec (.lookup k) s = .next (runLookup k s) := accepting_runs h _

theorem exec_remove_accepted (h : s.Accepting) (k : Word64) :
    exec (.remove k) s = .next (runRemove k s) := accepting_runs h _

theorem exec_cmdReserved_accepted (h : s.Accepting) (k : Word64) :
    exec (.cmdReserved k) s = .next (runReserved k s) := accepting_runs h _

theorem State.Accepting.mode_eq (h : s.Accepting) : s.mode = .run := by
  obtain ⟨hm, -⟩ := h; exact hm

theorem State.Accepting.rspPending_eq (h : s.Accepting) : s.rspPending = false := by
  obtain ⟨-, hp, -⟩ := h; exact hp

theorem State.Accepting.capacityInRange (h : s.Accepting) : s.capacityInRange = true := by
  obtain ⟨-, -, -, hone, hmax⟩ := h
  simp [State.capacityInRange, hone, hmax]

/-! ### One outcome each -/

/-- Settles O37: the reserved command is answered without a look at the table. -/
theorem reservedCommandAnswersIllegal : Obligations.ReservedCommandAnswersIllegal :=
  fun k _ ha => exec_cmdReserved_accepted ha k

/-- Settles O25: LOOKUP answers what the key probe finds. -/
theorem lookupReportsTheFirstCopy : Obligations.LookupReportsTheFirstCopy := by
  refine fun k s ha => ⟨fun p hfound => ?_, fun hmiss => ?_⟩
  · rw [exec_lookup_accepted ha, runLookup, probeResponse_found hfound]
    rfl
  · rw [exec_lookup_accepted ha, runLookup, probeResponse_notFound hmiss]
    rfl

/-- Settles O32: a REMOVE without a slot to clear answers as LOOKUP does. -/
theorem removeOfAnAbsentKey : Obligations.RemoveOfAnAbsentKey := by
  intro k s ha hmiss
  rw [exec_remove_accepted ha, runRemove_absent (keySlot_eq_none_iff.2 hmiss),
    probeResponse_notFound hmiss]
  rfl

/-- Settles O29: an INSERT whose probe finds no slot raises the fault before it writes anything. -/
theorem insertIntoAFullTableFaults : Obligations.InsertIntoAFullTableFaults := by
  intro k s ha hfull
  rw [exec_insert_accepted ha, runInsert_full (freeSlot_eq_none_iff.2 hfull)]
  rfl

/-- Settles O26: below the threshold nothing follows the slot write and the count. -/
theorem insertWritesTheFirstEmptySlot : Obligations.InsertWritesTheFirstEmptySlot := by
  intro k s p ha hs hfree hthr
  refine ⟨_, writesSlot_slotWrite hs p _, ?_⟩
  have hgrow : ¬ (insertSlot p k s).growCond = true := by
    rw [growCond_insertSlot]; omega
  rw [exec_insert_accepted ha, runInsert_writes (freeSlot_eq_some_iff.2 hfree), postInsert,
    if_neg hgrow, Ran.finish, okResponse_insertSlot]
  rfl

/-- Settles O27: the GROW after the slot write ends, and it is the operation GROW on that table. -/
theorem insertAboveTheThresholdGrows : Obligations.InsertAboveTheThresholdGrows := by
  intro k s p hbuild ha hs hfree hthr hfits
  obtain ⟨-, hlimit⟩ := hbuild
  unfold capacityLimit at hlimit
  have hp := freeSlot_eq_some_iff.2 hfree
  have hlt : p < s.capMax := by have := probeFree_lt hp; omega
  have hgrow := growTable_done (s := insertSlot p k s) (storageLegal_slotWrite hs _ hlt _)
    (by simpa using hfits) opInsert k
  rw [slotWrite_capacity] at hgrow
  have hexec := exec_grow_of_insert (s := insertSlot p k s)
    (by simpa [State.capacityInRange] using ha.capacityInRange) k
  rw [hgrow] at hexec
  refine ⟨_, _, writesSlot_slotWrite hs p _, hexec, ?_, ?_⟩
  · exact Nat.mod_eq_of_lt (by omega)
  · rw [exec_insert_accepted ha, runInsert_writes hp, postInsert,
      if_pos (growCond_insertSlot p k |>.2 hthr), hgrow]
    rfl

/-- Settles O33: with both comparators false nothing follows the slot write and the counts. -/
theorem removeWritesATombstone : Obligations.RemoveWritesATombstone := by
  intro k s p ha hs hfound hclean hshrink
  refine ⟨_, writesSlot_slotWrite hs p _, ?_⟩
  have hnoClean : (removeSlot p s).cleanCond = false := by
    rw [← Bool.not_eq_true, cleanCond_removeSlot]; omega
  have hnoShrink : (removeSlot p s).shrinkCond = false := by
    rw [← Bool.not_eq_true, shrinkCond_removeSlot]; omega
  have hpost : postRemove k (removeSlot p s) = .done (removeSlot p s) Events.none := by
    rw [postRemove, hnoClean, if_neg Bool.false_ne_true, shrinkIfLow, hnoShrink]
    rfl
  rw [exec_remove_accepted ha, runRemove_writes (keySlot_eq_some_iff.2 hfound), hpost,
    Ran.finish, okResponse_removeSlot]
  rfl

/-- Settles O34: the cascade is COMPACT and SHRINK run one after the other on the table with the
Tombstone. -/
theorem removeRunsItsCascade : Obligations.RemoveRunsItsCascade := by
  intro k s p ha hs hfound cleans shrinks
  obtain ⟨c, d, hclean, hdirty, hshrink, hkeep, hend⟩ :=
    postRemove_eq_exec_cascade (s := removeSlot p s) (by simpa using ha.mode_eq)
      (by simpa [State.capacityInRange] using ha.capacityInRange) k
  have hcleans : (removeSlot p s).cleanCond = true ↔ cleans := cleanCond_removeSlot p
  have hshrinks : (removeSlot p s).Shrinks ↔ shrinks := by
    rw [State.Shrinks, shrinkCond_removeSlot, slotWrite_capacity]
  rw [hcleans] at hclean hdirty hend
  rw [hshrinks] at hshrink hkeep hend
  have hexec := exec_remove_accepted ha k
  rw [runRemove_writes (keySlot_eq_some_iff.2 hfound)] at hexec
  refine ⟨_, _, c, d, writesSlot_slotWrite hs p _, rfl, hclean, hdirty, hshrink, hkeep, ?_⟩
  rcases hend with ⟨hrun, e, hcompact, hshrunk, hgrow, hpost⟩ | ⟨hruns, hpost, t, rfl⟩
  · rw [hpost] at hexec
    exact .inl ⟨hrun, e, hcompact, hshrunk, hgrow, hexec⟩
  · rw [hpost] at hexec
    exact .inr ⟨hruns, rfl, rfl, rfl, rfl, hexec⟩

/-! ### One outcome per command -/

/-- A command `op key` begun in `s` has ended in `t`: with the response to it, or in FAULT with its op
code and key (42_commands.md R605, R607, 60_exceptions.md R903). -/
def HasEnded (op : BitVec 2) (key : Word64) (s t : State) : Prop :=
  t.dp.fsm = .idle
    ∧ ((t.mode = .run ∧ t.rspPending = true ∧ t.rsp.op = op ∧ t.rsp.key = key
          ∧ t.rsp.capAfter = t.capacity)
      ∨ (t.mode = .fault ∧ t.rspPending = false ∧ t.faultCause ≠ .none ∧ t.faultOp = op
          ∧ t.faultKey = key ∧ t.rsp = s.rsp ∧ (op = opInsert ∨ op = opRemove)))

theorem hasEnded_respond (hm : t.mode = .run) {r : Response} (hr : r.capAfter = t.capacity) :
    HasEnded r.op r.key s (respond r t) :=
  ⟨rfl, .inl ⟨hm, rfl, rfl, rfl, hr⟩⟩

theorem hasEnded_raiseFault (hp : s.rspPending = false) (ht : SameButTable s t) {c : Cause}
    (hc : c ≠ .none) {op : BitVec 2} (hop : op = opInsert ∨ op = opRemove) (key : Word64) :
    HasEnded op key s (raiseFault c op key t) := by
  have hrsp : t.rsp = s.rsp := by rw [ht]
  exact ⟨rfl, .inr ⟨rfl, ht.rspPending_eq.trans hp, hc, rfl, rfl, hrsp, hop⟩⟩

/-- The sequence after a slot write ends its command either way (43_sequencer.md R705). -/
theorem hasEnded_finish (hm : s.mode = .run) (hp : s.rspPending = false) {op : BitVec 2}
    (hop : op = opInsert ∨ op = opRemove) {key : Word64} {r : Ran} (hr : SequenceEnds op key s r)
    (p : Nat) : HasEnded op key s (r.finish fun t ev => respond (okResponse op key p s t ev) t) := by
  cases hr with
  | done t ev ht => exact hasEnded_respond (ht.mode_eq.trans hm) rfl
  | raised c t ht hc =>
    exact hasEnded_raiseFault hp ht (by rcases hc with rfl | rfl <;> simp) hop key

theorem hasEnded_runInsert (hm : s.mode = .run) (hp : s.rspPending = false) (key : Word64) :
    HasEnded opInsert key s (runInsert key s) := by
  cases h : s.freeSlot key with
  | none => rw [runInsert_full h]; exact hasEnded_raiseFault hp (.refl s) (by simp) (.inl rfl) key
  | some p =>
    rw [runInsert_writes h]
    exact hasEnded_finish hm hp (.inl rfl)
      ((postInsert_ends key _).of_sameButTable (sameButTable_insertSlot p key s)) p

theorem hasEnded_runRemove (hm : s.mode = .run) (hp : s.rspPending = false) (key : Word64) :
    HasEnded opRemove key s (runRemove key s) := by
  cases h : s.keySlot key with
  | none => rw [runRemove_absent h]; exact hasEnded_respond hm rfl
  | some p =>
    rw [runRemove_writes h]
    exact hasEnded_finish hm hp (.inr rfl)
      ((postRemove_ends key _).of_sameButTable (sameButTable_removeSlot p s)) p

/-- Settles O38: each body ends with `respond` or `raiseFault`, the fault only in INSERT and REMOVE. -/
theorem oneOutcomePerCommand : Obligations.OneOutcomePerCommand := by
  intro k s op i ha hi
  rcases hi with ⟨rfl, rfl⟩ | ⟨rfl, rfl⟩ | ⟨rfl, rfl⟩ | ⟨rfl, rfl⟩
  · exact ⟨_, exec_insert_accepted ha k, hasEnded_runInsert ha.mode_eq ha.rspPending_eq k⟩
  · exact ⟨_, exec_lookup_accepted ha k, hasEnded_respond ha.mode_eq rfl⟩
  · exact ⟨_, exec_remove_accepted ha k, hasEnded_runRemove ha.mode_eq ha.rspPending_eq k⟩
  · exact ⟨_, exec_cmdReserved_accepted ha k, hasEnded_respond ha.mode_eq rfl⟩

end Sys2Proof.Machine
end

section
/-! SUPPORT. Which keys a table holds, and what the placement loop and compaction do to them
(43_sequencer.md R707, R708, R710, R711). -/

namespace Sys2Proof.Machine

section Keys

variable {m fresh old : Memory Slot} {c N i p : Nat} {k : Word64} {hash : Word64 → Word64}

/-- Some slot below `c` holds key `k`. -/
def HoldsKey (k : Word64) (m : Memory Slot) (c : Nat) : Prop :=
  ∃ i < c, Memory.read .empty m i = .occupied k

theorem not_holdsKey_clearBelow (k : Word64) (m : Memory Slot) (c : Nat) :
    ¬ HoldsKey k (Memory.clearBelow c m) c := by
  rintro ⟨i, hi, hk⟩
  rw [Memory.read_clearBelow, if_pos hi] at hk
  cases hk

/-- A slot write adds a key or takes one away. -/
theorem holdsKey_write (hm : Memory.wf .empty m) (v : Slot)
    (h : HoldsKey k (Memory.write .empty m i v) c) : v = .occupied k ∨ HoldsKey k m c := by
  obtain ⟨q, hq, hk⟩ := h
  rw [Memory.read_write hm.1] at hk
  split at hk
  · exact .inl hk
  · exact .inr ⟨q, hq, hk⟩

/-- A key placed in an Empty slot joins the others. -/
theorem holdsKey_place_iff {home : Nat} {k' : Word64} (hf : Memory.wf .empty fresh)
    (hp : (probeFree fresh home N).found = some p) :
    HoldsKey k (Memory.write .empty fresh p (.occupied k')) N ↔ k' = k ∨ HoldsKey k fresh N := by
  constructor
  · intro h
    exact (holdsKey_write hf _ h).imp_left Slot.occupied.inj
  · rintro (rfl | ⟨q, hq, hk⟩)
    · exact ⟨p, probeFree_lt hp, Memory.read_write_same hf.1⟩
    · have hne : p ≠ q := by
        rintro rfl
        rw [probeFree_reads_empty hp] at hk
        cases hk
      exact ⟨q, hq, (Memory.read_write_other hne).trans hk⟩

/-- The first of the slots j..j+n, or one of those after it. -/
theorem exists_slot_succ_iff {q : Nat → Prop} {j n : Nat} :
    (∃ i, j ≤ i ∧ i < j + (n + 1) ∧ q i) ↔ q j ∨ ∃ i, j + 1 ≤ i ∧ i < j + 1 + n ∧ q i := by
  constructor
  · rintro ⟨i, hlo, hhi, hq⟩
    rcases Nat.eq_or_lt_of_le hlo with rfl | hlt
    · exact .inl hq
    · exact .inr ⟨i, hlt, by omega, hq⟩
  · rintro (hq | ⟨i, hlo, hhi, hq⟩)
    · exact ⟨j, by omega, by omega, hq⟩
    · exact ⟨i, by omega, by omega, hq⟩

/-- A placement loop that ends has added the keys of old slots j..j+n-1, and no others. -/
theorem holdsKey_placeFrom_iff (n j : Nat) (hf : Memory.wf .empty fresh)
    (hdone : (placeFrom hash old N n j fresh).2 = true) :
    HoldsKey k (placeFrom hash old N n j fresh).1 N
      ↔ HoldsKey k fresh N
        ∨ ∃ i, j ≤ i ∧ i < j + n ∧ Memory.read .empty old i = .occupied k := by
  fun_induction placeFrom hash old N n j fresh with
  | case1 j fresh =>
    have hnone : ¬ ∃ i, j ≤ i ∧ i < j + 0 ∧ Memory.read .empty old i = .occupied k := by
      rintro ⟨i, hlo, hhi, -⟩
      omega
    exact (or_iff_left hnone).symm
  | case2 n j fresh k' hk p hp ih =>
    rw [ih (Memory.wf_write hf) hdone, holdsKey_place_iff hf hp, exists_slot_succ_iff, hk,
      Slot.occupied.injEq]
    tauto
  | case3 => cases hdone
  | case4 n j fresh hk ih => rw [ih hf hdone, exists_slot_succ_iff, hk]; simp
  | case5 n j fresh hk ih => rw [ih hf hdone, exists_slot_succ_iff, hk]; simp

/-- The inner loop of a compaction brings no key into the table. -/
theorem holdsKey_of_shiftRun {size : Nat} (n j : Nat) (hm : Memory.wf .empty m)
    (h : HoldsKey k (shiftRun c size n j m).1 c) : HoldsKey k m c := by
  fun_induction shiftRun c size n j m with
  | case1 => exact h
  | case2 n j m hj k' hk ih =>
    have hmoved := ih (Memory.wf_write (Memory.wf_write hm)) h
    have hplaced := (holdsKey_write (Memory.wf_write hm) _ hmoved).resolve_left (by simp)
    rcases holdsKey_write hm _ hplaced with hkey | hold
    · exact ⟨j, hj, hk.trans hkey⟩
    · exact hold
  | case3 => exact h
  | case4 => exact h
  | case5 => exact h

/-- A compaction brings no key into the table. -/
theorem holdsKey_of_compactFrom (n i : Nat) (start : Option Nat) (hm : Memory.wf .empty m)
    (h : HoldsKey k (compactFrom c n i start m) c) : HoldsKey k m c := by
  fun_induction compactFrom c n i start m with
  | case1 => exact h
  | case2 n i start m hi hk ih =>
    exact (holdsKey_write hm _ (ih (Memory.wf_write hm) h)).resolve_left (by simp)
  | case3 n i start m hi hk ih => exact ih hm h
  | case4 n i m hi k hk ih => exact ih hm h
  | case5 n i m hi k' hk st moved ih =>
    exact holdsKey_of_shiftRun _ _ hm (ih (shiftRun_wf _ _ hm) h)
  | case6 => exact h

/-- How often a key stands in a table. -/
theorem count_keysOf (k : Word64) (m : Memory Slot) (c : Nat) :
    (keysOf m c).count k = countSlots (Slot.holds k) m c := by
  rw [keysOf, List.count, List.countP_filterMap, countSlots]
  refine List.countP_congr fun i _ => ?_
  cases Memory.read .empty m i <;> simp [Slot.holds]

theorem countSlots_holds_eq_zero_iff :
    countSlots (Slot.holds k) m c = 0 ↔ ¬ HoldsKey k m c := by
  simp [countSlots_eq_zero_iff, HoldsKey, ← Bool.not_eq_true, Slot.holds_iff]

/-- Where the only copy of a key gives way to a Tombstone, the key is gone. -/
theorem not_holdsKey_write_tombstone (hm : Memory.wf .empty m) (hp : p < c)
    (hk : Memory.read .empty m p = .occupied k) (honce : (keysOf m c).count k = 1) :
    ¬ HoldsKey k (Memory.write .empty m p .tombstone) c := by
  have hcount := countSlots_write (Slot.holds k) hm hp .tombstone
  rw [← count_keysOf k m, honce, hk] at hcount
  rw [← countSlots_holds_eq_zero_iff]
  simpa [Slot.holds] using hcount

/-- A key probe of a table without the key finds nothing, in either build (41_probe_cam.md R506). -/
theorem probeKey_none_of_not_holdsKey (h : ¬ HoldsKey k m c) (stop : Bool) (home : Nat) :
    (probeKey stop m home c k).found = none := by
  refine Option.eq_none_iff_forall_ne_some.2 fun p hp => h ⟨p, probeKey_lt hp, ?_⟩
  exact probeKey_reads_key hp

/-- A key probe that passes Empty slots finds a key the table holds (41_probe_cam.md R506). -/
theorem exists_probeKey_of_holdsKey (h : HoldsKey k m c) (home : Nat) :
    ∃ p, (probeKey false m home c k).found = some p := by
  refine Option.ne_none_iff_exists'.1 fun hnone => ?_
  obtain ⟨i, hi, hk⟩ := h
  exact probeKey_false_none_iff.1 hnone i hi hk

end Keys

end Sys2Proof.Machine
end

section
/-! The statements on LOOKUP after INSERT and after REMOVE (95_test_vectors.md W1, W2, 42_commands.md
R602, 41_probe_cam.md R506). -/

namespace Sys2Proof.Machine

variable {s t u : State} {k key : Word64} {N p : Nat} {ev : Events}

/-! ### The keys of a state -/

/-- The table holds key `k`. -/
abbrev State.Holds (s : State) (k : Word64) : Prop := HoldsKey k s.table s.capacity.toNat

/-- A rebuild that ends keeps the keys of the table (43_sequencer.md R708). -/
theorem holds_commitRebuild_iff (hs : s.storageLegal) (hN : N < 2 ^ 32)
    (hdone : (s.rebuiltBank N).2 = true) : (commitRebuild N s).Holds k ↔ s.Holds k := by
  have hcap : (commitRebuild N s).capacity.toNat = N := by simpa using Nat.mod_eq_of_lt hN
  rw [State.Holds, hcap, table_commitRebuild,
    holdsKey_placeFrom_iff _ _ (Memory.wf_clearBelow (storageLegal_bank hs _).1) hdone,
    or_iff_right (not_holdsKey_clearBelow k _ N)]
  simp [State.Holds, HoldsKey]

theorem rebuild_done {op : BitVec 2} (h : rebuild op key N s = .done t ev) :
    (s.rebuiltBank N).2 = true ∧ t = commitRebuild N s := by
  rw [rebuild_eq] at h
  split at h
  · cases h; exact ⟨‹_›, rfl⟩
  · cases h

theorem holds_rebuild_iff (hs : s.storageLegal) (hN : N < 2 ^ 32) {op : BitVec 2}
    (h : rebuild op key N s = .done t ev) : t.Holds k ↔ s.Holds k := by
  obtain ⟨hdone, rfl⟩ := rebuild_done h
  exact holds_commitRebuild_iff hs hN hdone

/-- The grow of an INSERT keeps the keys of the table. -/
theorem holds_postInsert_iff (hs : s.storageLegal) (hbuild : s.buildLegal)
    (h : postInsert key s = .done t ev) : t.Holds k ↔ s.Holds k := by
  obtain ⟨-, hlimit⟩ := hbuild
  unfold capacityLimit at hlimit
  rcases postInsert_cases key s with ⟨-, e⟩ | ⟨-, u, ev', hgrow, e⟩ | ⟨-, u, -, e⟩
  · rw [e] at h; cases h; rfl
  · rw [e] at h; cases h
    rcases Nat.lt_or_ge s.capMax (2 * s.capacity.toNat) with hover | hfits
    · rw [growTable_overflow hover] at hgrow; cases hgrow
    · rw [growTable_rebuilds hfits] at hgrow
      exact holds_rebuild_iff hs (by omega) hgrow
  · rw [e] at h; cases h

/-- The shrink of a REMOVE keeps the keys of the table. -/
theorem holds_shrinkIfLow_iff (hs : s.storageLegal) {ev' : Events}
    (h : shrinkIfLow key ev s = .done t ev') : t.Holds k ↔ s.Holds k := by
  rcases shrinkIfLow_cases key ev s with ⟨-, e⟩ | ⟨-, -, u, ev'', hshrink, e⟩ | ⟨-, -, u, -, e⟩
  · rw [e] at h; cases h; rfl
  · rw [e] at h; cases h
    exact holds_rebuild_iff hs (by have := s.capacity.isLt; omega) hshrink
  · rw [e] at h; cases h

theorem table_compactTable (s : State) :
    (compactTable s).table = compactBank s.capacity.toNat s.table := table_setBank_active s _

@[simp] theorem compactTable_capacity : (compactTable s).capacity = s.capacity := by
  simp [compactTable_eq]

theorem holds_of_compactTable (hs : s.storageLegal) (h : (compactTable s).Holds k) :
    s.Holds k := by
  rw [State.Holds, table_compactTable, compactTable_capacity] at h
  exact holdsKey_of_compactFrom _ _ _ (storageLegal_bank hs _).1 h

/-- The cascade of a REMOVE brings no key into the table. -/
theorem holds_of_postRemove (hs : s.storageLegal) (hmax : s.capacity.toNat ≤ s.capMax)
    (h : postRemove key s = .done t ev) (hk : t.Holds k) : s.Holds k := by
  rcases postRemove_cases key s with ⟨-, e⟩ | ⟨-, e⟩
  · rw [e] at h
    exact (holds_shrinkIfLow_iff hs h).1 hk
  · rw [e] at h
    exact holds_of_compactTable hs
      ((holds_shrinkIfLow_iff (storageLegal_compactTable hs hmax) h).1 hk)

/-! ### The keys after a slot write -/

theorem table_insertSlot (p : Nat) (key : Word64) (s : State) :
    (insertSlot p key s).table = Memory.write .empty s.table p (.occupied key) :=
  table_setBank_active s _

theorem table_removeSlot (p : Nat) (s : State) :
    (removeSlot p s).table = Memory.write .empty s.table p .tombstone :=
  table_setBank_active s _

theorem holds_insertSlot (hs : s.storageLegal) (hp : s.freeSlot k = some p) :
    (insertSlot p k s).Holds k := by
  rw [State.Holds, table_insertSlot, slotWrite_capacity]
  exact (holdsKey_place_iff (storageLegal_bank hs _).1 hp).2 (.inl rfl)

theorem not_holds_removeSlot (hs : s.storageLegal) (hp : s.keySlot k = some p)
    (honce : (keysOf s.table s.capacity.toNat).count k = 1) : ¬ (removeSlot p s).Holds k := by
  rw [State.Holds, table_removeSlot, slotWrite_capacity]
  exact not_holdsKey_write_tombstone (storageLegal_bank hs _).1 (probeKey_lt hp)
    (probeKey_reads_key hp) honce

/-! ### Commands that answer -/

/-- A command whose sequence leaves it in RUN mode has answered: the sequence is done. -/
theorem finish_of_run {op : BitVec 2} {r : Ran} (hr : SequenceEnds op key s r)
    {f : State → Events → Response}
    (hm : (r.finish fun t ev => respond (f t ev) t).mode = .run) :
    ∃ t ev, r = .done t ev ∧ SameButTable s t
      ∧ (r.finish fun t ev => respond (f t ev) t) = respond (f t ev) t := by
  cases hr with
  | done t ev ht => exact ⟨t, ev, rfl, ht, rfl⟩
  | raised c t ht hc => cases hm

/-- An INSERT that answers leaves a table with its key, in the same build. -/
theorem holds_of_runInsert (hs : s.Sound) (ha : s.Accepting) (hm : (runInsert k s).mode = .run) :
    (runInsert k s).Holds k ∧ (runInsert k s).lookupEmptyStop = s.lookupEmptyStop := by
  have hne : s.mode ≠ .config := by rw [ha.mode_eq]; simp
  cases h : s.freeSlot k with
  | none => rw [runInsert_full h] at hm; cases hm
  | some p =>
    have hq := insertSlot_sound hs hne h k
    rw [runInsert_writes h] at hm ⊢
    obtain ⟨u, ev, hpost, hu, he⟩ := finish_of_run (postInsert_ends k _) hm
    rw [he]
    refine ⟨(holds_postInsert_iff hq.storageLegal hq.buildLegal hpost).2
      (holds_insertSlot hs.storageLegal h), ?_⟩
    rw [(sameButTable_insertSlot p k s).trans hu]
    rfl

/-- A REMOVE that answers OK for the only copy of its key leaves a table without it. -/
theorem not_holds_of_runRemove (hs : s.Sound) (ha : s.Accepting)
    (honce : (keysOf s.table s.capacity.toNat).count k = 1) (hm : (runRemove k s).mode = .run)
    (hok : (runRemove k s).rsp.status = .ok) : ¬ (runRemove k s).Holds k := by
  have hne : s.mode ≠ .config := by rw [ha.mode_eq]; simp
  cases h : s.keySlot k with
  | none =>
    rw [runRemove_absent h, probeResponse_notFound (keySlot_eq_none_iff.1 h)] at hok
    cases hok
  | some p =>
    have hq := removeSlot_sound hs hne h
    have hmode := (sameButTable_removeSlot p s).mode_eq
    rw [runRemove_writes h] at hm ⊢
    obtain ⟨u, ev, hpost, -, he⟩ := finish_of_run (postRemove_ends k _) hm
    rw [he]
    obtain ⟨-, hmax⟩ := tableLegal_capacity (hq.tableLegal (by rw [hmode]; exact hne))
    exact fun hk => not_holds_removeSlot hs.storageLegal h honce
      (holds_of_postRemove hq.storageLegal hmax hpost hk)

/-! ### LOOKUP afterwards -/

/-- Once its response is taken, a sound engine in RUN mode accepts the next command. -/
theorem handOver_accepting (hs : s.Sound) (hm : s.mode = .run) : (handOver s).Accepting := by
  obtain ⟨hone, hmax⟩ := tableLegal_capacity (hs.tableLegal (by rw [hm]; simp))
  exact ⟨hm, rfl, by rw [handOver_dp, hs.dp_eq]; rfl, hone, hmax⟩

/-- Settles O31: INSERT leaves a table with its key, and a key probe that passes Empty slots finds it. -/
theorem insertThenLookupFinds : Obligations.InsertThenLookupFinds := by
  intro k s t hs ha hstop hexec hm
  cases (exec_insert_accepted ha k).symm.trans hexec
  have ht := runInsert_sound hs ha.mode_eq ha.rspPending_eq k
  obtain ⟨hholds, hsame⟩ := holds_of_runInsert hs ha hm
  have hacc := handOver_accepting ht hm
  obtain ⟨p, hp⟩ := exists_probeKey_of_holdsKey hholds
    ((runInsert k s).homeOf k (runInsert k s).capacity.toNat)
  have hslot : (handOver (runInsert k s)).keySlot k = some p := by
    rw [State.keySlot, handOver_lookupEmptyStop, hsame, hstop]
    exact hp
  have hfound := keySlot_eq_some_iff.1 hslot
  have hlt := Sound_slot_lt ht (by rw [hm]; simp) (probeKey_lt hp)
  have hpos : (BitVec.ofNat 32 p).toNat = p := by
    rw [BitVec.toNat_ofNat, Nat.mod_eq_of_lt (by omega)]
  obtain ⟨hlookup, -⟩ := lookupReportsTheFirstCopy k _ hacc
  refine ⟨_, hlookup p hfound, rfl, ?_⟩
  show Memory.read .empty (runInsert k s).table (BitVec.ofNat 32 p).toNat = _
  rw [hpos]
  exact probeKey_reads_key hp

/-- Settles O36: REMOVE leaves a table without the key, in which no key probe finds it. -/
theorem removeThenLookupMisses : Obligations.RemoveThenLookupMisses := by
  intro k s t hs ha honce hexec hm hok
  cases (exec_remove_accepted ha k).symm.trans hexec
  have ht := runRemove_sound hs ha.mode_eq ha.rspPending_eq k
  have hmiss := keySlot_eq_none_iff.1 <| probeKey_none_of_not_holdsKey
    (not_holds_of_runRemove hs ha honce hm hok) _ _
  obtain ⟨-, hlookup⟩ := lookupReportsTheFirstCopy k _ (handOver_accepting ht hm)
  exact ⟨_, hlookup hmiss, rfl, rfl⟩

end Sys2Proof.Machine
end

section
/-! The statements on where a step has no next state (10_state.md R110, 42_commands.md R600, log entry
12). -/

namespace Sys2Proof.Machine

variable {s t : State}

/-! ### States out of range -/

theorem capacityInRange_eq_false (h : s.capacity.toNat = 0 ∨ s.capMax < s.capacity.toNat) :
    s.capacityInRange = false := by
  simp only [State.capacityInRange, Bool.and_eq_false_iff, decide_eq_false_iff_not]
  omega

/-- A command accepted at a capacity out of range stops the model. -/
theorem onCommandPort_outOfRange (ha : s.acceptsCommand = true) (hc : s.capacityInRange = false)
    (run : State → State) : onCommandPort s run = .fault .capacityOutOfRange := by
  simp [onCommandPort, ha, hc]

/-- A sequence run on its own at a capacity out of range stops the model. -/
theorem guarded_outOfRange (hc : s.capacityInRange = false) (r : Answer) :
    (if s.capacityInRange then r else .fault .capacityOutOfRange) = .fault .capacityOutOfRange :=
  if_neg (by rw [hc]; simp)

theorem execCompactNow_outOfRange (hm : s.mode = .run) (hb : s.busy = false)
    (hc : s.capacityInRange = false) : execCompactNow s = .fault .capacityOutOfRange := by
  rw [execCompactNow, onRegisterPort_idle hb, if_pos hm, guarded_outOfRange hc]

theorem probeLegal_eq_false {home cap : Word32}
    (h : cap.toNat = 0 ∨ s.capMax < cap.toNat ∨ cap.toNat ≤ home.toNat) :
    ¬ s.probeLegal home cap = true := by
  rw [probeLegal_iff]
  omega

theorem execRebuild_outOfRange {n : Word32} (hc : s.capacityInRange = true)
    (hn : n.toNat = 0 ∨ s.capMax < n.toNat) : execRebuild n s = .fault .operandOutOfRange := by
  rw [execRebuild, if_pos hc, if_neg (by omega)]

theorem exec_rd_slotOutOfBank {a : BitVec 8} (ha : a = 0x0E ∨ a = 0x0F) (hb : s.busy = false)
    (hlt : s.slotIndex.toNat < s.capacity.toNat) (hout : s.capMax ≤ s.slotIndex.toNat)
    (w : Word64) : exec (.rd a w) s = .fault .slotOutOfBank := by
  have houtside : s.readIsOutside a = true := by
    rcases ha with rfl | rfl <;> simp [State.readIsOutside, hlt, hout]
  rw [exec, execRd_idle hb, if_pos houtside]

/-- Settles O55: each operation checks its range before it does anything. -/
theorem outOfRangeStates : Obligations.OutOfRangeStates := by
  refine ⟨fun k n s hcap => ?capacity, fun b home cap k s h => ?probe,
    fun n s hone hmax hn => ?rebuild, fun w s hidle hlt hout => ?slot⟩
  case capacity =>
    have hc := capacityInRange_eq_false hcap
    refine ⟨fun hm hidle => execCompactNow_outOfRange hm (busy_eq_false_iff.2 hidle) hc,
      fun hm hidle hp => ?_, guarded_outOfRange hc _, guarded_outOfRange hc _,
      guarded_outOfRange hc _, guarded_outOfRange hc _⟩
    have ha := acceptsCommand_iff.2 ⟨hm, hidle, hp⟩
    exact ⟨onCommandPort_outOfRange ha hc _, onCommandPort_outOfRange ha hc _,
      onCommandPort_outOfRange ha hc _, onCommandPort_outOfRange ha hc _⟩
  case probe => exact ⟨if_neg (probeLegal_eq_false h), if_neg (probeLegal_eq_false h)⟩
  case rebuild => exact execRebuild_outOfRange (by simp [State.capacityInRange, hone, hmax]) hn
  case slot =>
    have hb := busy_eq_false_iff.2 hidle
    exact ⟨exec_rd_slotOutOfBank (.inl rfl) hb hlt hout w,
      exec_rd_slotOutOfBank (.inr rfl) hb hlt hout w⟩

/-! ### Sound states -/

/-- The model's answer is a next state. -/
def Answers (r : Answer) : Prop := ∃ t, r = .next t

theorem answers_next (t : State) : Answers (.next t) := ⟨t, rfl⟩

theorem Answers.andThen {r : Answer} (h : Answers r) (f : State → State) :
    Answers (andThen r f) := by
  obtain ⟨t, rfl⟩ := h
  exact answers_next _

theorem State.Sound.capacityInRange (hs : s.Sound) (hm : s.mode = .run) :
    s.capacityInRange = true := by
  obtain ⟨hc, -⟩ := hs.tableLegal (by rw [hm]; simp)
  exact hc

/-- In a sound state every slot of the table exists (10_state.md R110). -/
theorem State.Sound.capacity_le (hs : s.Sound) : s.capacity.toNat ≤ s.capMax := by
  by_cases hm : s.mode = .config
  · obtain ⟨hcap, -⟩ := hs.configLegal hm
    simp [hcap]
  · exact (tableLegal_capacity (hs.tableLegal hm)).2

theorem answers_onCommandPort (hs : s.Sound) (run : State → State) :
    Answers (onCommandPort s run) := by
  rcases onCommandPort_cases s run with ⟨-, h⟩ | ⟨-, -, h⟩ | ⟨ha, hc, -⟩
  · exact ⟨_, h⟩
  · exact ⟨_, h⟩
  · obtain ⟨hm, -⟩ := acceptsCommand_iff.1 ha
    rw [hs.capacityInRange hm] at hc
    cases hc

theorem answers_command (hs : s.Sound) (w : CmdWord) : Answers (exec (decodeCmd w) s) := by
  obtain ⟨k, h | h | h | h⟩ := decodeCmd_cases w
  all_goals
    rw [h]
    exact answers_onCommandPort hs _

theorem answers_rd (hs : s.Sound) (a : BitVec 8) (w : Word64) : Answers (execRd a w s) := by
  have hmax := hs.capacity_le
  have hinside : s.readIsOutside a = false := by
    simp only [State.readIsOutside, Bool.and_eq_false_iff, decide_eq_false_iff_not]
    omega
  rw [execRd_idle hs.not_busy, hinside]
  exact answers_next _

theorem answers_compactNow (hs : s.Sound) : Answers (execCompactNow s) := by
  rw [execCompactNow, onRegisterPort_idle hs.not_busy]
  split
  · rw [if_pos (hs.capacityInRange ‹_›)]
    exact answers_next _
  · exact answers_next _

/-- RD and COMPACT_NOW, which have a range to check, find it; the other rows of the register port have
none. -/
theorem answers_register {i : Instr} (hi : isRegisterRow i = true) (hs : s.Sound) :
    Answers (exec i s) := by
  have hidle : ¬ s.busy = true := by rw [hs.not_busy]; simp
  cases i with
  | insert _ | lookup _ | remove _ | cmdReserved _ | hash _ | probeFree _ _ _ | probeKey _ _ _
  | grow | shrink | rebuild _ | compact => cases hi
  | rd a w => exact answers_rd hs a w
  | compactNow => exact answers_compactNow hs
  | wrInitCapacity _ | wrGrowThr _ | wrShrinkThr _ | wrHtIndex _ | wrHtData _ | wrCtrl _ | start
  | softReset | wrSlotIndex _ | wrRefused01 _ | wrRefused02 _ _ | wrRefused07 _ | wrRefused08 _ _
  | wrRefused0A _ | wrRefused0E _ _ | wrRefused10 _ _ | wrRefused20 _ _ | wrRefused40 _ _
  | wrRefused80 _ _ => exact ⟨_, if_neg hidle⟩

/-- Settles O5: a sound state serves every edge, whatever is driven. -/
theorem soundStatesNeverStop : Obligations.SoundStatesNeverStop := by
  intro s hs
  have hreq (w : RegWord) {u : State} (hu : EdgeStart s u) : Answers (exec (decodeReg w) u) :=
    answers_register (decodeReg_isRegisterRow w) (edgeStart_sound hs hu)
  cases hrst : s.pins.rst with
  | true => exact ⟨_, step_reset hrst⟩
  | false =>
    cases hreg : s.pins.reg with
    | some w =>
      cases hresp : s.transfersResponse with
      | false =>
        rw [step_register hrst hs.not_busy hreg hresp]
        exact hreq w .alone
      | true =>
        rcases step_register_handOver hrst hs.not_busy hreg hresp with h | h
        · rw [h]; exact hreq w .afterHandOver
        · rw [h]; exact (hreq w .beforeHandOver).andThen handOver
    | none =>
      cases hresp : s.transfersResponse with
      | true => exact ⟨_, step_handOver hrst hs.not_busy hreg hresp⟩
      | false =>
        cases hcmd : s.pins.cmd with
        | some w =>
          rw [step_command hrst hs.not_busy hreg hresp hcmd]
          exact answers_command (advance_sound hs) w
        | none => exact ⟨_, step_nothing hrst hs.not_busy hreg hresp hcmd⟩

end Sys2Proof.Machine
end

section
/-! The statements on the load-factor comparators, on GROW and SHRINK, and on an INSERT past CAP_MAX
(43_sequencer.md R700, R703, R704). -/

namespace Sys2Proof.Machine

variable {s t : State} {N : Nat} {n : Word32}

/-- Settles O39: the products are of natural numbers, and CLEAN_THR is a quarter. -/
theorem loadFactorComparators : Obligations.LoadFactorComparators := by
  intro s
  refine ⟨?_, cleanCond_iff, ?_⟩
  · simp [State.growCond]
  · simp [State.shrinkCond]

/-- Settles O28: the slot write and the count come before the GROW that raises the fault. -/
theorem insertPastCapMaxFaults : Obligations.InsertPastCapMaxFaults := by
  intro k s p ha hs hfree hthr hover
  refine ⟨_, writesSlot_slotWrite hs p _, ?_⟩
  have hgrow := growTable_overflow (s := insertSlot p k s) (by simpa using hover) opInsert k
  rw [exec_insert_accepted ha, runInsert_writes (freeSlot_eq_some_iff.2 hfree), postInsert,
    if_pos (growCond_insertSlot p k |>.2 hthr), hgrow]
  rfl

/-! ### The resize operations within their ranges -/

theorem capacityInRange_intro (hone : 1 ≤ s.capacity.toNat)
    (hmax : s.capacity.toNat ≤ s.capMax) :
    s.capacityInRange = true := by
  simp [State.capacityInRange, hone, hmax]

theorem exec_grow (hc : s.capacityInRange = true) :
    exec .grow s = .next (growTable s.dp.op s.dp.key s).state := if_pos hc

theorem exec_shrink (hc : s.capacityInRange = true) (hlt : 1 < s.capacity.toNat) :
    exec .shrink s = .next (rebuild s.dp.op s.dp.key (s.capacity.toNat / 2) s).state :=
  (if_pos hc).trans (congrArg _ (if_pos hlt))

theorem exec_rebuild (hc : s.capacityInRange = true) (hone : 1 ≤ n.toNat)
    (hmax : n.toNat ≤ s.capMax) :
    exec (.rebuild n) s = .next (rebuild s.dp.op s.dp.key n.toNat s).state :=
  (if_pos hc).trans (if_pos ⟨hone, hmax⟩)

theorem toNat_ofNat_of_lt (h : N < 2 ^ 32) : (BitVec.ofNat 32 N).toNat = N := by
  rw [BitVec.toNat_ofNat, Nat.mod_eq_of_lt h]

/-- A rebuild ends done exactly when the keys have room (43_sequencer.md R708). -/
theorem rebuiltBank_done_iff (hs : s.storageLegal) : (s.rebuiltBank N).2 = true ↔
    countSlots Slot.isOccupied s.table s.capacity.toNat ≤ N := by
  refine ⟨fun hdone => ?_, rebuiltBank_succeeds hs⟩
  obtain ⟨hcount, -⟩ := rebuiltBank_counts hs (N := N)
  rw [← hcount hdone]
  exact countSlots_le _ _ _

/-- The state in which a rebuild without room for every key stops (43_sequencer.md R707). -/
abbrev abandonRebuild (op : BitVec 2) (key : Word64) (N : Nat) (s : State) : State :=
  raiseFault .shrinkOverflow op key (s.setBank (1 - s.active) (s.rebuiltBank N).1)

/-- The two ways of a rebuild, by the number of keys (43_sequencer.md R707, R708). -/
theorem rebuild_of_room (hs : s.storageLegal) (op : BitVec 2) (key : Word64)
    (hroom : countSlots Slot.isOccupied s.table s.capacity.toNat ≤ N) :
    rebuild op key N s = .done (commitRebuild N s) Events.none := by
  rw [rebuild_eq, if_pos ((rebuiltBank_done_iff hs).2 hroom)]

theorem rebuild_of_overflow (hs : s.storageLegal) (op : BitVec 2) (key : Word64)
    (hover : N < countSlots Slot.isOccupied s.table s.capacity.toNat) :
    rebuild op key N s = .raised (abandonRebuild op key N s) := by
  rw [rebuild_eq, if_neg fun hdone => by have := (rebuiltBank_done_iff hs).1 hdone; omega]

/-- Settles O40: within CAP_MAX the doubled table has room for every key. -/
theorem growDoublesOrFaults : Obligations.GrowDoublesOrFaults := by
  intro s hbuild hs hone hmax
  have hc := capacityInRange_intro hone hmax
  obtain ⟨-, hlimit⟩ := hbuild
  unfold capacityLimit at hlimit
  refine ⟨fun hfits => ?_, fun hover => ?_⟩
  · have hN := toNat_ofNat_of_lt (N := 2 * s.capacity.toNat) (by omega)
    have hexec := exec_rebuild (n := BitVec.ofNat 32 (2 * s.capacity.toNat)) hc (by omega)
      (by omega)
    rw [hN, ← growTable_rebuilds hfits] at hexec
    refine ⟨_, exec_grow hc, ?_, ?_, hexec⟩
    · rw [growTable_done hs hfits]
      exact hN
    · rw [growTable_done hs hfits]
      exact (sameButTable_commitRebuild _ s).mode_eq
  · rw [exec_grow hc, growTable_overflow hover]
    rfl

/-- Settles O41: above CAPACITY = 1 SHRINK is a rebuild, whose ending the number of keys decides. -/
theorem shrinkHalvesOrFaults : Obligations.ShrinkHalvesOrFaults := by
  intro s hone hmax hs
  have hc := capacityInRange_intro hone hmax
  refine ⟨fun h1 => ?_, fun hlt => ?_⟩
  · exact (if_pos hc).trans (congrArg _ (if_neg (by omega)))
  · have hN := toNat_ofNat_of_lt (N := s.capacity.toNat / 2)
      (by have := s.capacity.isLt; omega)
    refine ⟨_, exec_shrink hc hlt, ?_, fun hroom => ?_, fun hover => ?_⟩
    · rw [exec_rebuild hc (by omega) (by omega), hN]
    · rw [rebuild_of_room hs _ _ hroom]
      exact ⟨hN, (sameButTable_commitRebuild _ s).mode_eq⟩
    · rw [rebuild_of_overflow hs _ _ hover]
      exact ⟨by simp [Ran.state], rfl, rfl⟩

/-! ### A rebuild and the slots outside the fresh table -/

/-- A bank replaced: no other element has changed. -/
theorem setBank_eq (s : State) (b : BitVec 1) (m : Memory Slot) :
    s.setBank b m = { s with bank0 := (s.setBank b m).bank0, bank1 := (s.setBank b m).bank1 } := by
  unfold State.setBank
  split <;> rfl

theorem slotRead_setBank_same (s : State) (b : BitVec 1) (m : Memory Slot) (i : Nat) :
    (s.setBank b m).slotRead b i = Memory.read .empty m i := by
  rw [State.slotRead, bank_setBank_same]

theorem slotRead_setBank_other (s : State) {b b' : BitVec 1} (h : b ≠ b') (m : Memory Slot)
    (i : Nat) : (s.setBank b m).slotRead b' i = s.slotRead b' i := by
  rw [State.slotRead, State.slotRead, bank_setBank_other s h]

/-- The slots from the new capacity on hold what they held (43_sequencer.md R707). -/
theorem read_rebuiltBank_above (s : State) {i : Nat} (h : N ≤ i) :
    Memory.read .empty (s.rebuiltBank N).1 i = s.slotRead (1 - s.active) i := by
  rw [placeFrom_read _ _ _ h, Memory.read_clearBelow, if_neg (by omega)]
  rfl

/-- How many keys a table holds. -/
theorem length_keysOf (m : Memory Slot) (c : Nat) :
    (keysOf m c).length = countSlots Slot.isOccupied m c := by
  rw [keysOf, List.length_filterMap_eq_countP, countSlots]
  refine List.countP_congr fun i _ => ?_
  cases Memory.read .empty m i <;> simp [Slot.isOccupied]

/-- Settles O43: the fault comes before the commit, and what was written is in the inactive bank
below the new capacity. -/
theorem rebuildOverflowKeepsTheOldTable : Obligations.RebuildOverflowKeepsTheOldTable := by
  intro n s hone hmax hs hn1 hnmax hover
  rw [length_keysOf] at hover
  have hexec := exec_rebuild (capacityInRange_intro hone hmax) hn1 hnmax
  rw [rebuild_of_overflow hs _ _ hover] at hexec
  refine ⟨_, hexec, ?_, fun i => ?_, fun b i hi => ?_⟩
  · exact congrArg (raiseFault .shrinkOverflow s.dp.op s.dp.key) (setBank_eq s _ _)
  · exact slotRead_setBank_other s (one_sub_ne _) _ i
  · rcases eq_or_ne (1 - s.active) b with rfl | hb
    · exact (slotRead_setBank_same s _ _ i).trans (read_rebuiltBank_above s hi)
    · exact slotRead_setBank_other s hb _ i

end Sys2Proof.Machine
end

section
/-! The statement on REBUILD: its placement loop puts the keys of the old table, in order, each at
the first free slot from its hash (43_sequencer.md R706, R707, R708). -/

namespace Sys2Proof.Machine

section KeyLists

variable {m m' fresh : Memory Slot} {c N p : Nat} {k : Word64}

/-- The key of a slot, if it holds one. -/
def Slot.key? : Slot → Option Word64
  | .empty => none
  | .occupied k => some k
  | .tombstone => none

theorem keysOf_succ (m : Memory Slot) (c : Nat) :
    keysOf m (c + 1) = keysOf m c ++ (Memory.read .empty m c).key?.toList := by
  rw [keysOf, List.range_succ, List.filterMap_append, keysOf]
  congr 1
  cases h : Memory.read .empty m c <;> simp [h, Slot.key?]

theorem keysOf_clearBelow (m : Memory Slot) (c : Nat) : keysOf (Memory.clearBelow c m) c = [] := by
  rw [← List.length_eq_zero_iff, length_keysOf, countSlots_clearBelow rfl]

/-- A key placed in an Empty slot joins the others. -/
theorem keysOf_place_perm {home : Nat} (hf : Memory.wf .empty fresh)
    (hp : (probeFree fresh home N).found = some p) (k : Word64) :
    (keysOf (Memory.write .empty fresh p (.occupied k)) N).Perm (keysOf fresh N ++ [k]) := by
  rw [List.perm_iff_count]
  intro k'
  have hcount := countSlots_write (Slot.holds k') hf (probeFree_lt hp) (.occupied k)
  rw [probeFree_reads_empty hp] at hcount
  rw [List.count_append, count_keysOf, count_keysOf]
  by_cases hk : k = k'
  · simpa [Slot.holds, hk] using hcount
  · simpa [Slot.holds, hk, beq_eq_false_iff_ne.2 hk] using hcount

end KeyLists

section Placement

variable {hash : Word64 → Word64} {old fresh : Memory Slot} {keys : List Word64} {N p : Nat}
  {pos : Nat → Nat} {k : Word64}

/-- `PlacedInOrder` of a bank: key `j` stands at `pos j`, reached from its hash over places of
earlier keys, and the other slots are Empty. -/
def PlacedIn (hash : Word64 → Word64) (keys : List Word64) (N : Nat) (m : Memory Slot)
    (pos : Nat → Nat) : Prop :=
  (∀ j, (h : j < keys.length) → pos j < N ∧ Memory.read .empty m (pos j) = .occupied keys[j]
      ∧ ∃ off < N, pos j = ((hash keys[j]).toNat % N + off) % N
        ∧ ∀ o < off, ∃ i < j, pos i = ((hash keys[j]).toNat % N + o) % N)
    ∧ (∀ i < keys.length, ∀ j < keys.length, pos i = pos j → i = j)
    ∧ (∀ q < N, (∀ j < keys.length, pos j ≠ q) → Memory.read .empty m q = .empty)

theorem placedInOrder_iff {t : State} :
    PlacedInOrder hash keys N t pos ↔ PlacedIn hash keys N t.table pos := Iff.rfl

theorem placedIn_clearBelow (m : Memory Slot) :
    PlacedIn hash [] N (Memory.clearBelow N m) pos := by
  refine ⟨fun j h => absurd h (Nat.not_lt_zero j), fun i h => absurd h (Nat.not_lt_zero i),
    fun q hq _ => ?_⟩
  rw [Memory.read_clearBelow, if_pos hq]

/-- A slot that is not Empty is the place of some key. -/
theorem PlacedIn.exists_place (h : PlacedIn hash keys N fresh pos) {q : Nat} (hq : q < N)
    (hne : Memory.read .empty fresh q ≠ .empty) : ∃ i < keys.length, pos i = q := by
  obtain ⟨-, -, hempty⟩ := h
  by_contra hno
  exact hne (hempty q hq fun j hj hpos => hno ⟨j, hj, hpos⟩)

/-- The slot an insertion probe finds is no key's place yet. -/
theorem PlacedIn.place_ne {home : Nat} (h : PlacedIn hash keys N fresh pos)
    (hp : (probeFree fresh home N).found = some p) {j : Nat} (hj : j < keys.length) :
    pos j ≠ p := by
  rintro rfl
  obtain ⟨hplaced, -⟩ := h
  obtain ⟨-, hread, -⟩ := hplaced j hj
  rw [probeFree_reads_empty hp] at hread
  cases hread

/-- One more key, placed by the insertion probe over the keys before it (43_sequencer.md R707). -/
theorem PlacedIn.snoc (hf : Memory.wf .empty fresh) (h : PlacedIn hash keys N fresh pos)
    (hp : (probeFree fresh ((hash k).toNat % N) N).found = some p) :
    PlacedIn hash (keys ++ [k]) N (Memory.write .empty fresh p (.occupied k))
      (Function.update pos keys.length p) := by
  have hne {j : Nat} (hj : j < keys.length) : pos j ≠ p := h.place_ne hp hj
  have hold {j : Nat} (hj : j < keys.length) : Function.update pos keys.length p j = pos j :=
    Function.update_of_ne (Nat.ne_of_lt hj) _ _
  have hnew : Function.update pos keys.length p keys.length = p := Function.update_self _ _ _
  obtain ⟨hplaced, hinj, hempty⟩ := id h
  have hlen : (keys ++ [k]).length = keys.length + 1 := List.length_append
  have hlast {j : Nat} (hj : j < (keys ++ [k]).length) : j < keys.length ∨ j = keys.length := by
    omega
  refine ⟨fun j hj => ?places, fun i hi j hj hij => ?injective, fun q hq hfree => ?rest⟩
  case places =>
    rcases hlast hj with hlt | rfl
    · obtain ⟨hN, hread, off, hoff, hpos, hpassed⟩ := hplaced j hlt
      rw [hold hlt, List.getElem_append_left hlt, Memory.read_write_other (hne hlt).symm]
      refine ⟨hN, hread, off, hoff, hpos, fun o ho => ?_⟩
      obtain ⟨i, hi, hpi⟩ := hpassed o ho
      exact ⟨i, hi, (hold (by omega)).trans hpi⟩
    · obtain ⟨off, hoff, hpos, -, hpassed, -⟩ := probeFree_found hp
      rw [hnew, List.getElem_concat_length rfl, Memory.read_write_same hf.1]
      refine ⟨probeFree_lt hp, rfl, off, hoff, hpos, fun o ho => ?_⟩
      obtain ⟨i, hi, hpi⟩ := h.exists_place (Nat.mod_lt _ (by omega)) (hpassed o ho)
      exact ⟨i, hi, (hold hi).trans hpi⟩
  case injective =>
    rcases hlast hi with hlti | rfl <;>
      rcases hlast hj with hltj | rfl
    · rw [hold hlti, hold hltj] at hij
      exact hinj i hlti j hltj hij
    · rw [hold hlti, hnew] at hij
      exact absurd hij (hne hlti)
    · rw [hnew, hold hltj] at hij
      exact absurd hij.symm (hne hltj)
    · rfl
  case rest =>
    have hpq : p ≠ q := fun hpq => hfree keys.length (by omega) (hnew.trans hpq)
    rw [Memory.read_write_other hpq]
    exact hempty q hq fun j hj => hold hj ▸ hfree j (by omega)

/-- The fresh bank of a rebuild after the first keys have been placed: where they stand, and that it
holds no others. -/
def PlacementHolds (hash : Word64 → Word64) (keys : List Word64) (N : Nat)
    (m : Memory Slot) : Prop :=
  (∃ pos, PlacedIn hash keys N m pos) ∧ (keysOf m N).Perm keys

theorem PlacementHolds.snoc (hf : Memory.wf .empty fresh) (h : PlacementHolds hash keys N fresh)
    (hp : (probeFree fresh ((hash k).toNat % N) N).found = some p) :
    PlacementHolds hash (keys ++ [k]) N (Memory.write .empty fresh p (.occupied k)) := by
  obtain ⟨⟨pos, hpos⟩, hperm⟩ := h
  exact ⟨⟨_, hpos.snoc hf hp⟩, (keysOf_place_perm hf hp k).trans (hperm.append_right _)⟩

/-- A placement loop that ends has placed the keys of the old slots in ascending order. -/
theorem placeFrom_holds (n j : Nat) (hf : Memory.wf .empty fresh)
    (h : PlacementHolds hash (keysOf old j) N fresh)
    (hdone : (placeFrom hash old N n j fresh).2 = true) :
    PlacementHolds hash (keysOf old (j + n)) N (placeFrom hash old N n j fresh).1 := by
  fun_induction placeFrom hash old N n j fresh with
  | case1 => exact h
  | case2 n j fresh k hk p hp ih =>
    have hnext := ih (Memory.wf_write hf) (by rw [keysOf_succ, hk]; exact h.snoc hf hp) hdone
    rwa [Nat.add_right_comm] at hnext
  | case3 => cases hdone
  | case4 n j fresh hk ih | case5 n j fresh hk ih =>
    have hnext := ih hf (by rw [keysOf_succ, hk]; simpa [Slot.key?] using h) hdone
    rwa [Nat.add_right_comm] at hnext

end Placement

variable {s : State} {N : Nat}

theorem rebuiltBank_holds (hs : s.storageLegal) (hdone : (s.rebuiltBank N).2 = true) :
    PlacementHolds s.hash64 (keysOf s.table s.capacity.toNat) N (s.rebuiltBank N).1 := by
  have hstart := placeFrom_holds (hash := s.hash64) (old := s.table) s.capacity.toNat 0
    (Memory.wf_clearBelow (storageLegal_bank hs (1 - s.active)).1)
    ⟨⟨id, placedIn_clearBelow _⟩, by rw [keysOf_clearBelow]; exact .refl _⟩ hdone
  rwa [Nat.zero_add] at hstart

/-- Settles O42: the committed bank is what the placement loop has built. -/
theorem rebuildPlacesKeysInOrder : Obligations.RebuildPlacesKeysInOrder := by
  intro n s hone hmax hs hn1 hnmax hroom
  rw [length_keysOf] at hroom
  have hexec := exec_rebuild (capacityInRange_intro hone hmax) hn1 hnmax
  rw [rebuild_of_room hs _ _ hroom] at hexec
  obtain ⟨⟨pos, hpos⟩, hperm⟩ := rebuiltBank_holds hs (rebuiltBank_succeeds hs hroom)
  obtain ⟨-, htombs⟩ := rebuiltBank_counts hs (N := n.toNat)
  have htable := table_commitRebuild n.toNat s
  refine ⟨_, pos, hexec, ?frame, ?placed, fun i => ?old, fun i hi => ?above, ?keys,
    fun i hi => ?tombs⟩
  case frame =>
    rw [Ran.state, commitRebuild, setBank_eq s, BitVec.ofNat_toNat, BitVec.setWidth_eq]
  case placed => rwa [placedInOrder_iff, Ran.state, htable]
  case old => exact slotRead_setBank_other s (one_sub_ne _) _ i
  case above =>
    exact (slotRead_setBank_same s _ _ i).trans (read_rebuiltBank_above s hi)
  case keys => rwa [Ran.state, htable]
  case tombs =>
    intro htomb
    have hread : Memory.read .empty (commitRebuild n.toNat s).table i = .tombstone := htomb
    have hnone := countSlots_eq_zero_iff.1 htombs i hi
    rw [← htable, hread] at hnone
    cases hnone

end Sys2Proof.Machine
end

section
/-! The statements on COMPACT: what it keeps, and its closed form by gaps and runs
(43_sequencer.md R710, R711). -/

namespace Sys2Proof.Machine

section Order

variable {m m' : Memory Slot} {c i j size : Nat} {k : Word64}

/-! ### The keys in order -/

theorem keysOf_congr
    (h : ∀ i < c, (Memory.read .empty m' i).key? = (Memory.read .empty m i).key?) :
    keysOf m' c = keysOf m c := by
  induction c with
  | zero => rfl
  | succ c ih => rw [keysOf_succ, keysOf_succ, ih fun i hi => h i (by omega), h c (by omega)]

theorem Slot.key?_of_not_occupied {v : Slot} (h : v.isOccupied = false) : v.key? = none := by
  cases v with
  | empty | tombstone => rfl
  | occupied => cases h

/-- A Tombstone cleared takes no key away. -/
theorem keysOf_clear (hm : Memory.wf .empty m) (hi : Memory.read .empty m i = .tombstone) :
    keysOf (Memory.write .empty m i .empty) c = keysOf m c := by
  refine keysOf_congr fun j _ => ?_
  rw [Memory.read_write hm.1]
  split
  · subst_vars; rw [hi]; rfl
  · rfl

/-- A key that moves left across a gap is met earlier, and keeps its place among the others. -/
theorem keysOf_shiftSlot (hm : Memory.wf .empty m) (hsize : 0 < size) (hle : size ≤ j)
    (hgap : NoneOccupied m (j - size) j) (hk : Memory.read .empty m j = .occupied k) (c : Nat) :
    keysOf (shiftSlot size j k m) c
      = keysOf m c ++ if j - size < c ∧ c ≤ j then [k] else [] := by
  induction c with
  | zero => simp [keysOf]
  | succ c ih =>
    rw [keysOf_succ, keysOf_succ, ih, read_shiftSlot hm]
    rcases Nat.lt_trichotomy c j with hlt | rfl | hgt
    · rcases Nat.lt_trichotomy c (j - size) with hbefore | rfl | hinside
      · rw [if_neg (by omega), if_neg (by omega), if_neg (by omega), if_neg (by omega)]
        simp
      · have hnone := Slot.key?_of_not_occupied (hgap _ (Nat.le_refl _) hlt)
        rw [if_neg (by omega), if_neg (by omega), if_pos rfl, if_pos (by omega), hnone]
        simp [Slot.key?]
      · have hnone := Slot.key?_of_not_occupied (hgap c (by omega) hlt)
        rw [if_pos (by omega), if_neg (by omega), if_neg (by omega), if_pos (by omega), hnone]
        simp
    · rw [if_pos (by omega), if_pos rfl, if_neg (by omega), hk]
      simp [Slot.key?]
    · rw [if_neg (by omega), if_neg (by omega), if_neg (by omega), if_neg (by omega)]
      simp

/-- The inner loop, entered behind a gap of `size` slots, keeps the keys in order. -/
theorem shiftRun_keysOf (n : Nat) (hm : Memory.wf .empty m) (hsize : 0 < size) (hle : size ≤ j)
    (hgap : NoneOccupied m (j - size) j) : keysOf (shiftRun c size n j m).1 c = keysOf m c := by
  fun_induction shiftRun c size n j m with
  | case1 => rfl
  | case2 n j m hj k hk ih =>
    rw [ih (Memory.wf_write (Memory.wf_write hm)) (by omega)
        (noneOccupied_shiftSlot hm hsize hle hgap k),
      keysOf_shiftSlot hm hsize hle hgap hk, if_neg (by omega), List.append_nil]
  | case3 | case4 | case5 => rfl

/-- Compaction keeps the keys in order (43_sequencer.md R711). -/
theorem compactFrom_keysOf (n : Nat) {start : Option Nat} (hm : Memory.wf .empty m)
    (hgap : GapOpen m start i) : keysOf (compactFrom c n i start m) c = keysOf m c := by
  fun_induction compactFrom c n i start m with
  | case1 => rfl
  | case2 n i start m hi hk ih =>
    rw [ih (Memory.wf_write hm) (hgap.clear hm), keysOf_clear hm hk]
  | case3 n i start m hi hk ih => exact ih hm (hgap.pass (by rw [hk]; rfl))
  | case4 n i m hi k hk ih => exact ih hm gapOpen_none
  | case5 n i m hi k hk st moved ih =>
    obtain ⟨hlt, hnone⟩ := hgap st rfl
    rw [ih (shiftRun_wf _ _ hm) gapOpen_none]
    refine shiftRun_keysOf _ hm (by omega) (by omega) ?_
    rwa [Nat.sub_sub_self (Nat.le_of_lt hlt)]
  | case6 => rfl

theorem compactBank_noTomb (hm : Memory.wf .empty m) : NoTombBelow (compactBank c m) c :=
  compactFrom_noTombBelow c hm (fun k hk => absurd hk (Nat.not_lt_zero k)) (by omega)

end Order

/-- A bank replaced by itself. -/
theorem setBank_self (s : State) (b : BitVec 1) : s.setBank b (s.bank b) = s := by
  unfold State.setBank State.bank
  split <;> rfl

/-- Without Tombstones COMPACT does nothing but REMOVED <- 0 (43_sequencer.md R711). -/
theorem compactTable_of_noTomb {s : State} (h : NoTombBelow s.table s.capacity.toNat)
    (hr : s.removed = 0) : compactTable s = s := by
  have hbank : compactBank s.capacity.toNat s.table = s.table := compactFrom_noTomb _ _ h
  rw [compactTable_eq, hbank, setBank_self, ← hr]

/-- Settles O45: the scan keeps the order of the keys and leaves no Tombstone, so that a second one
finds nothing to do. -/
theorem compactKeepsTheKeysInOrder : Obligations.CompactKeepsTheKeysInOrder := by
  intro s hone hmax hs
  have hc := capacityInRange_intro hone hmax
  have hwf := (storageLegal_bank hs s.active).1
  have htable := table_compactTable s
  have hnoTomb : NoTombBelow (compactTable s).table s.capacity.toNat := by
    rw [htable]; exact compactBank_noTomb hwf
  have hcap : (compactTable s).capacity = s.capacity := compactTable_capacity
  refine ⟨_, exec_compact hc, rfl, by simp [compactTable_eq], hcap, hnoTomb, ?_, ?_⟩
  · rw [htable]
    exact compactFrom_keysOf _ hwf gapOpen_none
  · have hc' : (compactTable s).capacityInRange = true := by
      simpa [State.capacityInRange, compactTable_eq] using hc
    rw [exec_compact hc', compactTable_of_noTomb (by rwa [hcap]) rfl]

section ClosedForm

variable {m m' : Memory Slot} {c g a b i n size : Nat}

/-! ### Gaps and runs of a bank -/

/-- Slots g..b-1 of a bank are a gap g..a-1 and the run a..b-1 after it, the run as long as it can
be. -/
structure IsGapRun (c : Nat) (m : Memory Slot) (g a b : Nat) : Prop where
  gap_le : g ≤ a
  run_le : a ≤ b
  le_cap : b ≤ c
  gap : NoneOccupied m g a
  run : ∀ i, a ≤ i → i < b → (Memory.read .empty m i).isOccupied = true
  ends : b = c ∨ (a < b ∧ (Memory.read .empty m b).isOccupied = false)

/-- `m'` holds gap g..a-1 and run a..b-1 of `m` after COMPACT: as before where the gap has no
Tombstone, else the run from the gap's first Tombstone on, and Empty slots around it
(43_sequencer.md R710). -/
def RunMoved (m m' : Memory Slot) (g a b : Nat) : Prop :=
  ((∀ i < a, g ≤ i → Memory.read .empty m i ≠ .tombstone) →
      ∀ i < b, g ≤ i → Memory.read .empty m' i = Memory.read .empty m i)
    ∧ ∀ f < a, g ≤ f → Memory.read .empty m f = .tombstone →
        (∀ i < f, g ≤ i → Memory.read .empty m i ≠ .tombstone) →
        (∀ i < b - a, Memory.read .empty m' (f + i) = Memory.read .empty m (a + i))
        ∧ (∀ i < f, g ≤ i → Memory.read .empty m' i = .empty)
        ∧ (∀ i < b, f + (b - a) ≤ i → Memory.read .empty m' i = .empty)

/-- From any slot on, the first one with a property, or the end. -/
theorem exists_first (q : Nat → Bool) (h : i ≤ c) :
    ∃ a, i ≤ a ∧ a ≤ c ∧ (∀ k, i ≤ k → k < a → q k = false) ∧ (a = c ∨ q a = true) := by
  induction h using Nat.decreasingInduction with
  | self => exact ⟨c, Nat.le_refl _, Nat.le_refl _, fun k hlo hhi => by omega, .inl rfl⟩
  | of_succ i hi ih =>
    cases hq : q i with
    | true => exact ⟨i, Nat.le_refl _, Nat.le_of_lt hi, fun k hlo hhi => by omega, .inr hq⟩
    | false =>
      obtain ⟨a, hia, hac, hbefore, hend⟩ := ih
      refine ⟨a, by omega, hac, fun k hlo hhi => ?_, hend⟩
      rcases Nat.eq_or_lt_of_le hlo with rfl | hlt
      · exact hq
      · exact hbefore k hlt hhi

/-- From any slot of the table on there is a gap, maybe of no slots, and the run after it. -/
theorem exists_gapRun (m : Memory Slot) (h : i < c) : ∃ a b, i < b ∧ IsGapRun c m i a b := by
  obtain ⟨a, hia, hac, hgap, hoccupied⟩ :=
    exists_first (fun k => (Memory.read .empty m k).isOccupied) (Nat.le_of_lt h)
  obtain ⟨b, hab, hbc, hrun, hend⟩ :=
    exists_first (fun k => !(Memory.read .empty m k).isOccupied) hac
  simp only [Bool.not_eq_false', Bool.not_eq_true'] at hrun hend
  have hlt : b = c ∨ a < b := by
    rcases hoccupied with rfl | hocc
    · exact .inl (by omega)
    · rcases hend with hbc | hfree
      · exact .inl hbc
      · refine .inr (Nat.lt_of_le_of_ne hab fun hab => ?_)
        rw [← hab, hocc] at hfree
        cases hfree
  exact ⟨a, b, by omega, hia, hab, hbc, hgap, hrun, by tauto⟩

/-! ### One gap and run -/

section Turns

variable {start : Option Nat}

theorem compactFrom_end (h : c ≤ i) : compactFrom c n i start m = m := by
  cases n with
  | zero => rfl
  | succ n => exact if_neg (by omega)

theorem compactFrom_tombstone (hi : i < c) (h : Memory.read .empty m i = .tombstone) :
    compactFrom c (n + 1) i start m
      = compactFrom c n (i + 1) (some (start.getD i)) (Memory.write .empty m i .empty) := by
  simp [compactFrom.eq_def c (n + 1), hi, h]

theorem compactFrom_empty (hi : i < c) (h : Memory.read .empty m i = .empty) :
    compactFrom c (n + 1) i start m = compactFrom c n (i + 1) start m := by
  simp [compactFrom.eq_def c (n + 1), hi, h]

theorem compactFrom_occupied_none {k : Word64} (hi : i < c)
    (h : Memory.read .empty m i = .occupied k) :
    compactFrom c (n + 1) i none m = compactFrom c n (i + 1) none m := by
  simp [compactFrom.eq_def c (n + 1), hi, h]

theorem compactFrom_occupied_some {k : Word64} {st : Nat} (hi : i < c)
    (h : Memory.read .empty m i = .occupied k) :
    compactFrom c (n + 1) i (some st) m = compactFrom c n (shiftRun c (i - st) (c - i) i m).2 none
      (shiftRun c (i - st) (c - i) i m).1 := by
  simp [compactFrom.eq_def c (n + 1), hi, h]

end Turns

/-- With no run start the scan passes every slot but a Tombstone. -/
theorem compactFrom_skip (d : Nat) (hd : i + d ≤ c)
    (h : ∀ k, i ≤ k → k < i + d → Memory.read .empty m k ≠ .tombstone) :
    compactFrom c (d + n) i none m = compactFrom c n (i + d) none m := by
  induction d generalizing i with
  | zero => simp
  | succ d ih =>
    have hrest := ih (i := i + 1) (by omega) fun k hlo hhi => h k (by omega) (by omega)
    have hhere := h i (Nat.le_refl _) (by omega)
    rw [Nat.add_right_comm i 1 d] at hrest
    rw [Nat.add_right_comm d 1 n]
    cases hi : Memory.read .empty m i with
    | tombstone => exact absurd hi hhere
    | empty => exact (compactFrom_empty (by omega) hi).trans hrest
    | occupied => exact (compactFrom_occupied_none (by omega) hi).trans hrest

/-- With a run start the scan clears the rest of the gap. -/
theorem compactFrom_clear (st d : Nat) (hm : Memory.wf .empty m) (hd : i + d ≤ c)
    (h : NoneOccupied m i (i + d)) :
    ∃ m', Memory.wf .empty m'
      ∧ compactFrom c (d + n) i (some st) m = compactFrom c n (i + d) (some st) m'
      ∧ ∀ k, Memory.read .empty m' k
          = if i ≤ k ∧ k < i + d then .empty else Memory.read .empty m k := by
  induction d generalizing i m with
  | zero => exact ⟨m, hm, by simp, fun k => by rw [if_neg (by omega)]⟩
  | succ d ih =>
    have hhere := h i (Nat.le_refl _) (by omega)
    rw [Nat.add_right_comm d 1 n, ← Nat.add_assoc, Nat.add_right_comm i d 1]
    cases hi : Memory.read .empty m i with
    | occupied => rw [hi] at hhere; cases hhere
    | empty =>
      obtain ⟨m', hm', hrest, hread⟩ := ih (i := i + 1) hm (by omega)
        fun k hlo hhi => h k (by omega) (by omega)
      refine ⟨m', hm', (compactFrom_empty (by omega) hi).trans hrest, fun k => ?_⟩
      rw [hread]
      rcases eq_or_ne i k with rfl | hne
      · rw [if_neg (by omega), if_pos (by omega), hi]
      · exact if_congr (by omega) rfl rfl
    | tombstone =>
      have hwrite (k : Nat) : Memory.read .empty (Memory.write .empty m i .empty) k
          = if i = k then .empty else Memory.read .empty m k := Memory.read_write hm.1
      obtain ⟨m', hm', hrest, hread⟩ := ih (i := i + 1) (Memory.wf_write (i := i) (v := .empty) hm)
        (by omega) fun k hlo hhi => by
          rw [hwrite, if_neg (by omega)]; exact h k (by omega) (by omega)
      refine ⟨m', hm', (compactFrom_tombstone (by omega) hi).trans hrest, fun k => ?_⟩
      rw [hread, hwrite]
      rcases eq_or_ne i k with rfl | hne
      · rw [if_neg (by omega), if_pos rfl, if_pos (by omega)]
      · rw [if_neg hne]
        exact if_congr (by omega) rfl rfl

/-- The inner loop moves a run of slots into the Empty gap before it. -/
theorem shiftRun_moves (hm : Memory.wf .empty m) (hsize : 0 < size) (hle : size ≤ a) (hab : a ≤ b)
    (hbc : b ≤ c) (hgap : ∀ k, a - size ≤ k → k < a → Memory.read .empty m k = .empty)
    (hrun : ∀ k, a ≤ k → k < b → (Memory.read .empty m k).isOccupied = true)
    (hend : b = c ∨ (Memory.read .empty m b).isOccupied = false) :
    (shiftRun c size (c - a) a m).2 = b
      ∧ ∀ k, Memory.read .empty (shiftRun c size (c - a) a m).1 k
          = if a - size ≤ k ∧ k < b - size then Memory.read .empty m (k + size)
            else if b - size ≤ k ∧ k < b then .empty else Memory.read .empty m k := by
  induction hab using Nat.decreasingInduction generalizing m with
  | self =>
    have hstop : shiftRun c size (c - b) b m = (m, b) := by
      rcases hend with rfl | hfree
      · rw [Nat.sub_self, shiftRun]
      · cases hn : c - b with
        | zero => rfl
        | succ n =>
          rw [shiftRun, if_pos (by omega)]
          cases hb : Memory.read .empty m b with
          | occupied => rw [hb] at hfree; cases hfree
          | empty | tombstone => rfl
    rw [hstop]
    refine ⟨rfl, fun k => ?_⟩
    rw [if_neg (by omega)]
    split
    · exact hgap k (by omega) (by omega)
    · rfl
  | of_succ a ha ih =>
    have hocc := hrun a (Nat.le_refl _) ha
    obtain ⟨n, hn⟩ : ∃ n, c - a = n + 1 := ⟨c - a - 1, by omega⟩
    have hn' : c - (a + 1) = n := by omega
    cases hk : Memory.read .empty m a with
    | empty | tombstone => rw [hk] at hocc; cases hocc
    | occupied key =>
      have hread (k : Nat) := read_shiftSlot (size := size) (j := a) hm key k
      obtain ⟨hstop, hmoved⟩ := ih (m := shiftSlot size a key m)
        (Memory.wf_write (Memory.wf_write hm)) (by omega)
        (fun k hlo hhi => by
          rw [hread]
          split
          · rfl
          · rw [if_neg (by omega)]; exact hgap k (by omega) (by omega))
        (fun k hlo hhi => by
          rw [hread, if_neg (by omega), if_neg (by omega)]; exact hrun k (by omega) hhi)
        (hend.imp_right fun hfree => by
          rw [hread, if_neg (by omega), if_neg (by omega)]; exact hfree)
      rw [hn'] at hstop hmoved
      rw [hn, shiftRun, if_pos (by omega), hk]
      refine ⟨hstop, fun k => (hmoved k).trans ?_⟩
      by_cases hin : a + 1 - size ≤ k ∧ k < b - size
      · rw [if_pos hin, if_pos (show a - size ≤ k ∧ k < b - size by omega), hread,
          if_neg (by omega), if_neg (by omega)]
      · rw [if_neg hin, hread]
        by_cases hfirst : a - size = k
        · subst hfirst
          rw [if_neg (show ¬(b - size ≤ a - size ∧ a - size < b) by omega), if_neg (by omega),
            if_pos rfl, if_pos (by omega), Nat.sub_add_cancel hle, hk]
        · rw [if_neg (show ¬(a - size ≤ k ∧ k < b - size) by omega)]
          split
          · rfl
          · rw [if_neg (show ¬ a = k by omega)]

/-- The inner loop, entered at a slot past a gap of `size`, keeps the slots before the gap. -/
theorem shiftRun_read_before {j k : Nat} (h : k + size < j) :
    Memory.read .empty (shiftRun c size n j m).1 k = Memory.read .empty m k := by
  fun_induction shiftRun c size n j m with
  | case2 n j m hj key hk ih =>
    rw [ih (by omega), Memory.read_write_other (by omega), Memory.read_write_other (by omega)]
  | case1 | case3 | case4 | case5 => rfl

/-- Compaction leaves the slots it has passed alone, but for an open gap. -/
theorem compactFrom_read_before {start : Option Nat} {k : Nat} (hk : k < i)
    (hst : ∀ st, start = some st → k < st ∧ st ≤ i) :
    Memory.read .empty (compactFrom c n i start m) k = Memory.read .empty m k := by
  fun_induction compactFrom c n i start m with
  | case1 => rfl
  | case2 n i start m hi hread ih =>
    rw [ih (by omega) ?_, Memory.read_write_other (by omega)]
    rintro st ⟨⟩
    cases start with
    | none => exact ⟨hk, by simp⟩
    | some st => obtain ⟨h1, h2⟩ := hst st rfl; exact ⟨h1, by simp; omega⟩
  | case3 n i start m hi hread ih =>
    exact ih (by omega) fun st h => by obtain ⟨h1, h2⟩ := hst st h; omega
  | case4 n i m hi key hread ih => exact ih (by omega) fun st h => nomatch h
  | case5 n i m hi key hread st moved ih =>
    obtain ⟨h1, h2⟩ := hst st rfl
    have hmoved := (shiftRun_bounds (c := c) (size := i - st) (c - i) i m).1
    rw [ih (Nat.lt_of_lt_of_le hk hmoved) fun st h => nomatch h]
    exact shiftRun_read_before (by omega)
  | case6 => rfl

/-- A gap with first Tombstone `f` and its run, moved. -/
theorem runMoved_intro {f : Nat} (h : IsGapRun c m g a b) (hgf : g ≤ f) (hfa : f < a)
    (htomb : Memory.read .empty m f = .tombstone)
    (hbefore : ∀ k, g ≤ k → k < f → Memory.read .empty m k ≠ .tombstone)
    (hread : ∀ k, Memory.read .empty m' k
      = if f ≤ k ∧ k < f + (b - a) then Memory.read .empty m (k + (a - f))
        else if f + (b - a) ≤ k ∧ k < b then .empty else Memory.read .empty m k) :
    RunMoved m m' g a b := by
  have hrun := h.run_le
  refine ⟨fun hnone => absurd htomb (hnone f hfa hgf), fun f' hf'a hgf' htomb' hbefore' => ?_⟩
  obtain rfl : f' = f := by
    rcases Nat.lt_trichotomy f' f with hlt | heq | hgt
    · exact absurd htomb' (hbefore f' hgf' hlt)
    · exact heq
    · exact absurd htomb (hbefore' f hgt hgf)
  refine ⟨fun i hi => ?_, fun i hi hgi => ?_, fun i hi hlo => ?_⟩
  · rw [hread, if_pos (by omega)]
    congr 1
    omega
  · rw [hread, if_neg (by omega), if_neg (by omega)]
    have hnone := h.gap i hgi (by omega)
    have hnoTomb := hbefore i hgi hi
    cases hslot : Memory.read .empty m i with
    | empty => rfl
    | tombstone => exact absurd hslot hnoTomb
    | occupied => rw [hslot] at hnone; cases hnone
  · rw [hread, if_neg (by omega), if_pos (by omega)]

/-- From the first Tombstone of a gap on, the scan clears the gap. -/
theorem compactFrom_openGap {f : Nat} (d : Nat) (hm : Memory.wf .empty m) (hd : f + 1 + d ≤ c)
    (htomb : Memory.read .empty m f = .tombstone) (h : NoneOccupied m (f + 1) (f + 1 + d)) :
    ∃ m', Memory.wf .empty m'
      ∧ compactFrom c (d + n + 1) f none m = compactFrom c n (f + 1 + d) (some f) m'
      ∧ ∀ k, Memory.read .empty m' k
          = if f ≤ k ∧ k < f + 1 + d then .empty else Memory.read .empty m k := by
  have hwrite (k : Nat) : Memory.read .empty (Memory.write .empty m f .empty) k
      = if f = k then .empty else Memory.read .empty m k := Memory.read_write hm.1
  obtain ⟨m', hm', hrest, hread⟩ := compactFrom_clear (n := n) f d
    (Memory.wf_write (i := f) (v := .empty) hm) hd fun k hlo hhi => by
      rw [hwrite, if_neg (by omega)]; exact h k hlo hhi
  refine ⟨m', hm', (compactFrom_tombstone (by omega) htomb).trans hrest, fun k => ?_⟩
  rw [hread, hwrite]
  rcases eq_or_ne f k with rfl | hne
  · rw [if_neg (by omega), if_pos rfl, if_pos (by omega)]
  · rw [if_neg hne]
    exact if_congr (by omega) rfl rfl

/-- The scan, at the end of a cleared gap, moves the run there to its run start. -/
theorem compactFrom_closeGap {f : Nat} (hm : Memory.wf .empty m) (hfa : f < a) (hab : a < b)
    (hbc : b ≤ c) (hgap : ∀ k, f ≤ k → k < a → Memory.read .empty m k = .empty)
    (hrun : ∀ k, a ≤ k → k < b → (Memory.read .empty m k).isOccupied = true)
    (hend : b = c ∨ (Memory.read .empty m b).isOccupied = false) :
    ∃ m', Memory.wf .empty m' ∧ compactFrom c (n + 1) a (some f) m = compactFrom c n b none m'
      ∧ ∀ k, Memory.read .empty m' k
          = if f ≤ k ∧ k < f + (b - a) then Memory.read .empty m (k + (a - f))
            else if f + (b - a) ≤ k ∧ k < b then .empty else Memory.read .empty m k := by
  obtain ⟨hstop, hmoved⟩ := shiftRun_moves (size := a - f) (b := b) hm (by omega) (by omega)
    (by omega) hbc (fun k hlo hhi => hgap k (by omega) hhi) hrun hend
  have hocc := hrun a (Nat.le_refl _) hab
  have hstart : a - (a - f) = f := by omega
  have hlast : b - (a - f) = f + (b - a) := by omega
  rw [hstart, hlast] at hmoved
  refine ⟨_, shiftRun_wf (size := a - f) (c - a) a hm, ?_, hmoved⟩
  cases ha : Memory.read .empty m a with
  | occupied key => rw [compactFrom_occupied_some (by omega) ha, hstop]
  | empty | tombstone => rw [ha] at hocc; cases hocc

/-- Compaction of `m`, at slot `g` with no run start, comes to slot `b` with no run start: it has
moved the run of gap g..a-1 and run a..b-1 and not touched the slots after it. -/
def PassesRun (c n : Nat) (m : Memory Slot) (g a b : Nat) : Prop :=
  ∃ m' n', Memory.wf .empty m' ∧ c ≤ b + n'
    ∧ compactFrom c n g none m = compactFrom c n' b none m'
    ∧ (∀ k, b ≤ k → Memory.read .empty m' k = Memory.read .empty m k) ∧ RunMoved m m' g a b

/-- Over a gap without Tombstones. -/
theorem passesRun_of_noTomb (hm : Memory.wf .empty m) (h : IsGapRun c m g a b) (hgb : g < b)
    (hn : c ≤ g + n) (hgap : ∀ k, g ≤ k → k < a → Memory.read .empty m k ≠ .tombstone) :
    PassesRun c n m g a b := by
  have hbc := h.le_cap
  have hab := h.run_le
  have hnoTomb (k : Nat) (hlo : g ≤ k) (hhi : k < b) : Memory.read .empty m k ≠ .tombstone := by
    intro htomb
    rcases Nat.lt_or_ge k a with hka | hka
    · exact hgap k hlo hka htomb
    · have hocc := h.run k hka hhi
      rw [htomb] at hocc
      cases hocc
  obtain ⟨d, rfl⟩ : ∃ d, b = g + d := ⟨b - g, by omega⟩
  obtain ⟨n', rfl⟩ : ∃ n', n = d + n' := ⟨n - d, by omega⟩
  exact ⟨m, n', hm, by omega, compactFrom_skip d hbc hnoTomb, fun _ _ => rfl,
    fun _ _ _ _ => rfl, fun f hf hgf htomb => absurd htomb (hnoTomb f hgf (by omega))⟩

/-- Over a gap with first Tombstone `f`. -/
theorem passesRun_of_tomb {f : Nat} (hm : Memory.wf .empty m) (h : IsGapRun c m g a b)
    (hn : c ≤ g + n) (hgf : g ≤ f) (hfa : f < a) (htomb : Memory.read .empty m f = .tombstone)
    (hbefore : ∀ k, g ≤ k → k < f → Memory.read .empty m k ≠ .tombstone) :
    PassesRun c n m g a b := by
  obtain ⟨-, hab, hbc, hgap, hrun, hend⟩ := id h
  obtain ⟨d, rfl⟩ : ∃ d, f = g + d := ⟨f - g, by omega⟩
  obtain ⟨e, rfl⟩ : ∃ e, a = g + d + 1 + e := ⟨a - (g + d + 1), by omega⟩
  obtain ⟨n', rfl⟩ : ∃ n', n = d + (e + n' + 1) := ⟨n - (d + e + 1), by omega⟩
  have hskip := compactFrom_skip (c := c) (n := e + n' + 1) d (by omega) hbefore
  obtain ⟨m₁, hm₁, hopen, hcleared⟩ := compactFrom_openGap (c := c) (n := n') e hm (by omega) htomb
    fun k hlo hhi => hgap k (by omega) hhi
  rcases Nat.eq_or_lt_of_le hab with rfl | hlt
  case inl =>
    refine ⟨m₁, n', hm₁, by omega, ?_, fun k hk => ?_, ?_⟩
    · rw [hskip, hopen, compactFrom_end (by omega), compactFrom_end (by omega)]
    · rw [hcleared, if_neg (by omega)]
    · refine runMoved_intro h hgf hfa htomb hbefore fun k => ?_
      rw [hcleared, Nat.sub_self, if_neg (show ¬(g + d ≤ k ∧ k < g + d + 0) by omega)]
      rfl
  case inr =>
    obtain ⟨n₁, rfl⟩ : ∃ n₁, n' = n₁ + 1 := ⟨n' - 1, by omega⟩
    obtain ⟨m₂, hm₂, hclose, hmoved⟩ := compactFrom_closeGap (n := n₁) (f := g + d) hm₁ (by omega)
      hlt hbc (fun k hlo hhi => by rw [hcleared, if_pos ⟨hlo, hhi⟩])
      (fun k hlo hhi => by rw [hcleared, if_neg (by omega)]; exact hrun k hlo hhi)
      (hend.imp_right fun ⟨_, hfree⟩ => by rw [hcleared, if_neg (by omega)]; exact hfree)
    have hread (k : Nat) : Memory.read .empty m₂ k
        = if g + d ≤ k ∧ k < g + d + (b - (g + d + 1 + e)) then
            Memory.read .empty m (k + (g + d + 1 + e - (g + d)))
          else if g + d + (b - (g + d + 1 + e)) ≤ k ∧ k < b then .empty
          else Memory.read .empty m k := by
      rw [hmoved]
      refine if_ctx_congr .rfl (fun hin => ?_) fun hout =>
        if_ctx_congr .rfl (fun _ => rfl) fun hout' => ?_
      · rw [hcleared, if_neg (by omega)]
      · rw [hcleared, if_neg (by omega)]
    refine ⟨m₂, n₁, hm₂, by omega, ?_, fun k hk => ?_, ?_⟩
    · rw [hskip, hopen, hclose]
    · rw [hread, if_neg (by omega), if_neg (by omega)]
    · exact runMoved_intro h hgf hfa htomb hbefore hread

/-- Compaction passes one gap and run after the other. -/
theorem IsGapRun.passes (h : IsGapRun c m g a b) (hm : Memory.wf .empty m) (hgb : g < b)
    (hn : c ≤ g + n) : PassesRun c n m g a b := by
  obtain ⟨f, hgf, hfa, hbefore, hfirst⟩ :=
    exists_first (fun k => (Memory.read .empty m k).isTomb) h.gap_le
  simp only [← Bool.not_eq_true, Slot.isTomb_iff] at hbefore hfirst
  rcases Nat.eq_or_lt_of_le hfa with rfl | hlt
  · exact passesRun_of_noTomb hm h hgb hn hbefore
  · exact passesRun_of_tomb hm h hn hgf hlt (hfirst.resolve_left (by omega)) hbefore

/-! ### The whole table -/

theorem IsGapRun.congr (h : IsGapRun c m g a b)
    (hread : ∀ k, g ≤ k → Memory.read .empty m' k = Memory.read .empty m k) :
    IsGapRun c m' g a b := by
  have hga := h.gap_le
  have hab := h.run_le
  refine ⟨hga, hab, h.le_cap, fun k hlo hhi => ?_, fun k hlo hhi => ?_, h.ends.imp_right ?_⟩
  · rw [hread k hlo]; exact h.gap k hlo hhi
  · rw [hread k (by omega)]; exact h.run k hlo hhi
  · rintro ⟨hlt, hfree⟩
    exact ⟨hlt, by rw [hread b (by omega)]; exact hfree⟩

/-- Two results, and two tables compacted, that agree on a gap and run. -/
theorem RunMoved.congr {t t' : Memory Slot} (h : RunMoved m t g a b) (hga : g ≤ a) (hab : a ≤ b)
    (hm : ∀ k, g ≤ k → Memory.read .empty m' k = Memory.read .empty m k)
    (ht : ∀ k, k < b → Memory.read .empty t' k = Memory.read .empty t k) :
    RunMoved m' t' g a b := by
  obtain ⟨hkeep, hmove⟩ := h
  refine ⟨fun hnone i hi hgi => ?_, fun f hf hgf htomb hbefore => ?_⟩
  · rw [ht i hi, hm i hgi]
    exact hkeep (fun k hk hgk => by rw [← hm k hgk]; exact hnone k hk hgk) i hi hgi
  · rw [hm f hgf] at htomb
    obtain ⟨hrun, hbelow, habove⟩ := hmove f hf hgf htomb
      fun k hk hgk => by rw [← hm k hgk]; exact hbefore k hk hgk
    refine ⟨fun i hi => ?_, fun i hi hgi => ?_, fun i hi hlo => ?_⟩
    · rw [ht _ (by omega), hm _ (by omega)]; exact hrun i hi
    · rw [ht i (by omega)]; exact hbelow i hi hgi
    · rw [ht i hi]; exact habove i hi hlo

/-- Compaction from a slot at which a gap begins moves every run from there on (43_sequencer.md
R710). -/
theorem compactFrom_runMoved (hm : Memory.wf .empty m) (hn : c ≤ i + n) (hig : i ≤ g)
    (hstart : g = i ∨ (g < a ∧ (Memory.read .empty m (g - 1)).isOccupied = true))
    (h : IsGapRun c m g a b) (hgb : g < b) :
    RunMoved m (compactFrom c n i none m) g a b := by
  induction hd : c - i using Nat.strong_induction_on generalizing i n m with
  | _ d ih =>
    have hga := h.gap_le
    have hab := h.run_le
    have hbc := h.le_cap
    rcases Nat.eq_or_lt_of_le hig with rfl | hlt
    · obtain ⟨m', n', hm', hn', hpass, -, hmoved⟩ := h.passes hm hgb hn
      rw [hpass]
      exact hmoved.congr hga hab (fun _ _ => rfl)
        fun k hk => compactFrom_read_before hk fun st h => nomatch h
    · obtain ⟨hgap, hocc⟩ := hstart.resolve_left (by omega)
      have hfree := h.gap g (Nat.le_refl _) hgap
      obtain ⟨a', b', hib', h'⟩ := exists_gapRun m (show i < c by omega)
      have ha' : a' < g := by
        by_contra hge
        have hnone := h'.gap (g - 1) (by omega) (by omega)
        rw [hocc] at hnone
        cases hnone
      have hb' : b' ≤ g := by
        by_contra hgt
        have hrun := h'.run g (by omega) (by omega)
        rw [hfree] at hrun
        cases hrun
      obtain ⟨m', n', hm', hn', hpass, hsame, -⟩ := h'.passes hm hib' hn
      rw [hpass]
      refine (ih (c - b') (by omega) hm' hn' hb' ?_ (h.congr fun k hk => hsame k (by omega)) rfl).congr
        hga hab (fun k hk => (hsame k (by omega)).symm) fun _ _ => rfl
      rcases Nat.eq_or_lt_of_le hb' with rfl | hlt'
      · exact .inl rfl
      · exact .inr ⟨hgap, by rw [hsame _ (by omega)]; exact hocc⟩

variable {s : State}

theorem GapAndRun.isGapRun (h : GapAndRun s g a b) : IsGapRun s.capacity.toNat s.table g a b := by
  obtain ⟨hga, hab, hbc, -, hgap, hrun, hend⟩ := h
  exact ⟨hga, hab, hbc, fun k hlo hhi => hgap k hhi hlo, fun k hlo hhi => hrun k hhi hlo, hend⟩

/-- Settles O44: COMPACT passes the gaps and runs of the table one after the other, each at its own
turn. -/
theorem compactMovesEachRunIntoItsGap : Obligations.CompactMovesEachRunIntoItsGap := by
  intro s hone hmax hs
  have hwf := (storageLegal_bank hs s.active).1
  refine ⟨_, exec_compact (capacityInRange_intro hone hmax), ?frame, fun b i houtside => ?outside,
    fun g a b h => ?moved⟩
  case frame => rw [compactTable_eq, setBank_eq s]
  case outside =>
    rcases eq_or_ne s.active b with rfl | hb
    · have habove := houtside.resolve_left (fun hne => hne rfl)
      exact (slotRead_setBank_same s _ _ i).trans (compactFrom_read _ _ _ _ habove)
    · exact slotRead_setBank_other s hb _ i
  case moved =>
    obtain ⟨hga, hab, -, hstart, -, -, hend⟩ := id h
    have hgb : g < b := by omega
    have hmoved := compactFrom_runMoved (n := s.capacity.toNat) hwf (Nat.le_add_left _ _)
      (Nat.zero_le g) hstart h.isGapRun hgb
    show RunMoved s.table (compactTable s).table g a b
    rwa [table_compactTable]

end ClosedForm

end Sys2Proof.Machine
end

section
/-! SUPPORT. Runs of micro-steps, and the micro-steps of a probe (43_sequencer.md R720,
41_probe_cam.md R501, R502). -/

namespace Sys2Proof.Machine

variable {s t u v : State} {n k : Nat}

/-! ### Runs -/

/-- `t` is `s` after at most `n` micro-steps. -/
def Reaches (n : Nat) (s t : State) : Prop := ∃ k ≤ n, microSteps k s = t

theorem microSteps_add (a b : Nat) (s : State) :
    microSteps (a + b) s = microSteps b (microSteps a s) := by
  induction a generalizing s with
  | zero => rw [Nat.zero_add]; rfl
  | succ a ih => rw [Nat.add_right_comm]; exact ih (microStep s)

theorem Reaches.refl (s : State) : Reaches n s s := ⟨0, Nat.zero_le n, rfl⟩

theorem Reaches.trans {a b : Nat} (h : Reaches a s t) (h' : Reaches b t u) :
    Reaches (a + b) s u := by
  obtain ⟨i, hi, rfl⟩ := h
  obtain ⟨j, hj, rfl⟩ := h'
  exact ⟨i + j, by omega, microSteps_add i j s⟩

theorem Reaches.mono {m : Nat} (h : Reaches n s t) (hnm : n ≤ m) : Reaches m s t := by
  obtain ⟨i, hi, hrun⟩ := h
  exact ⟨i, by omega, hrun⟩

/-- One micro-step, then the rest. -/
theorem Reaches.step (h : microStep s = t) (h' : Reaches n t u) : Reaches (n + 1) s u := by
  obtain ⟨i, hi, rfl⟩ := h'
  exact ⟨i + 1, by omega, by rw [← h]; rfl⟩

theorem microSteps_idle (h : s.dp.fsm = .idle) (n : Nat) : microSteps n s = s := by
  induction n with
  | zero => rfl
  | succ n ih =>
    have hstay : microStep s = s := by rw [microStep, h]
    rw [microSteps, hstay, ih]

/-- An idle FSM stays as it is, so a run to it is a run of every greater length. -/
theorem Reaches.microSteps_eq (h : Reaches n s t) (hidle : t.dp.fsm = .idle) :
    microSteps n s = t := by
  obtain ⟨i, hi, rfl⟩ := h
  obtain ⟨j, rfl⟩ := Nat.exists_eq_add_of_le hi
  rw [microSteps_add, microSteps_idle hidle]

/-- The turns of a loop, one micro-step each. -/
theorem reaches_turns (turn : Nat → State) (h : ∀ i < k, microStep (turn i) = turn (i + 1)) :
    Reaches k (turn 0) (turn k) := by
  refine ⟨k, Nat.le_refl k, ?_⟩
  induction k with
  | zero => rfl
  | succ k ih =>
    have hbefore := ih fun i hi => h i (by omega)
    rw [microSteps_add, hbefore]
    exact h k (by omega)

/-! ### Datapath registers -/

/-- `d'` has the registers of `d` that a command keeps to its end; the FSM state and the registers
of the loops may differ. -/
def SameCommand (d d' : Datapath) : Prop :=
  d' = { d with fsm := d'.fsm, off := d'.off, pos := d'.pos, scan := d'.scan,
                runStart := d'.runStart, shift := d'.shift, newCap := d'.newCap,
                index := d'.index, placeKey := d'.placeKey }

theorem SameCommand.refl (d : Datapath) : SameCommand d d := rfl

theorem SameCommand.trans {d d' d'' : Datapath} (h : SameCommand d d') (h' : SameCommand d' d'') :
    SameCommand d d'' := by
  unfold SameCommand at *
  rw [h', h]

theorem SameCommand.after {d d' d'' : Datapath} (h : SameCommand d' d'') (h' : SameCommand d d') :
    SameCommand d d'' := h'.trans h

/-- The registers of a probe from `home` at capacity `c`, at offset `off` (41_probe_cam.md R502). -/
abbrev probeAt (q : FsmState) (home c off : Nat) (d : Datapath) : Datapath :=
  { d with off := BitVec.ofNat 32 off, pos := BitVec.ofNat 32 ((home + off) % c), fsm := q }

section Probe

variable {q : FsmState} {home off : Nat} {cap : Word32} {d : Datapath} {miss : State → State}

theorem startProbe_eq {c : Nat} (hhome : home < c) (s : State) :
    startProbe (BitVec.ofNat 32 home) q (s.withDatapath d)
      = s.withDatapath (probeAt q home c 0 d) := by
  rw [probeAt, Nat.add_zero, Nat.mod_eq_of_lt hhome]
  rfl

theorem ofNat_succ (i : Nat) : BitVec.ofNat 32 i + 1 = BitVec.ofNat 32 (i + 1) :=
  (BitVec.ofNat_add i 1).symm

theorem ofNat_succ_eq_iff {i : Nat} (hi : i < cap.toNat) :
    BitVec.ofNat 32 i + 1 = cap ↔ i + 1 = cap.toNat := by
  have hwidth := cap.isLt
  rw [ofNat_succ, ← BitVec.toNat_inj, BitVec.toNat_ofNat, Nat.mod_eq_of_lt (by omega)]

/-- The position after `p`, as the register P counts (41_probe_cam.md R502). -/
theorem pos_succ (x : Nat) (hc : 0 < cap.toNat) :
    (if BitVec.ofNat 32 (x % cap.toNat) + 1 = cap then 0 else BitVec.ofNat 32 (x % cap.toNat) + 1)
      = BitVec.ofNat 32 ((x + 1) % cap.toNat) := by
  have hlt : x % cap.toNat < cap.toNat := Nat.mod_lt _ hc
  rw [← Nat.mod_add_mod x]
  by_cases hend : x % cap.toNat + 1 = cap.toNat
  · rw [if_pos ((ofNat_succ_eq_iff hlt).2 hend), hend, Nat.mod_self]
    rfl
  · rw [if_neg (hend ∘ (ofNat_succ_eq_iff hlt).1), ofNat_succ,
      Nat.mod_eq_of_lt (show x % cap.toNat + 1 < cap.toNat by omega)]

/-- Offset and position advance together (41_probe_cam.md R502). -/
theorem advanceProbe_next (h : off + 1 < cap.toNat) :
    advanceProbe cap miss (s.withDatapath (probeAt q home cap.toNat off d))
      = s.withDatapath (probeAt q home cap.toNat (off + 1) d) := by
  have hmore : ¬ BitVec.ofNat 32 off + 1 = cap := by
    rw [ofNat_succ_eq_iff (by omega)]
    omega
  refine (if_neg hmore).trans (congrArg s.withDatapath ?_)
  show ({ d with off := BitVec.ofNat 32 off + 1, pos := if _ then _ else _, fsm := q } : Datapath) = _
  rw [pos_succ _ (by omega), ofNat_succ]
  rfl

theorem advanceProbe_last (h : off + 1 = cap.toNat) :
    advanceProbe cap miss (s.withDatapath (probeAt q home cap.toNat off d))
      = miss (s.withDatapath { probeAt q home cap.toNat off d with off := cap }) :=
  if_pos ((ofNat_succ_eq_iff (by omega)).2 h)

/-- A probe by micro-steps: `hturn` says what one turn does with the slot it examines. It ends as
the probe of the atomic transition does (41_probe_cam.md R501, R502). -/
theorem probe_reaches {m : Memory Slot} {hit stop : Slot → Bool} {onHit onStop : State → State}
    (hcap : 0 < cap.toNat)
    (hturn : ∀ o < cap.toNat, microStep (s.withDatapath (probeAt q home cap.toNat o d))
      = if hit (probedSlot m home cap.toNat o) then
          onHit (s.withDatapath (probeAt q home cap.toNat o d))
        else if stop (probedSlot m home cap.toNat o) then
          onStop (s.withDatapath (probeAt q home cap.toNat o d))
        else advanceProbe cap miss (s.withDatapath (probeAt q home cap.toNat o d))) :
    (∃ o < cap.toNat, (probeFrom m home cap.toNat hit stop cap.toNat 0).found
          = some ((home + o) % cap.toNat)
        ∧ Reaches cap.toNat (s.withDatapath (probeAt q home cap.toNat 0 d))
            (onHit (s.withDatapath (probeAt q home cap.toNat o d))))
      ∨ (∃ o < cap.toNat, (probeFrom m home cap.toNat hit stop cap.toNat 0).found = none
        ∧ stop (probedSlot m home cap.toNat o) = true
        ∧ Reaches cap.toNat (s.withDatapath (probeAt q home cap.toNat 0 d))
            (onStop (s.withDatapath (probeAt q home cap.toNat o d))))
      ∨ ((probeFrom m home cap.toNat hit stop cap.toNat 0).found = none
        ∧ Reaches cap.toNat (s.withDatapath (probeAt q home cap.toNat 0 d))
            (miss (s.withDatapath
              { probeAt q home cap.toNat (cap.toNat - 1) d with off := cap }))) := by
  have hpass {k : Nat} (hk : k < cap.toNat)
      (hb : ∀ o < k, hit (probedSlot m home cap.toNat (0 + o)) = false
        ∧ stop (probedSlot m home cap.toNat (0 + o)) = false) :
      Reaches k (s.withDatapath (probeAt q home cap.toNat 0 d))
        (s.withDatapath (probeAt q home cap.toNat k d)) := by
    refine reaches_turns (fun o => s.withDatapath (probeAt q home cap.toNat o d)) fun o ho => ?_
    obtain ⟨hh, hs⟩ := hb o ho
    rw [Nat.zero_add] at hh hs
    rw [hturn o (by omega), hh, hs, if_neg Bool.false_ne_true, if_neg Bool.false_ne_true,
      advanceProbe_next (by omega)]
  have hlast {o : Nat} {t : State} (ho : o < cap.toNat)
      (hb : ∀ o' < o, hit (probedSlot m home cap.toNat (0 + o')) = false
        ∧ stop (probedSlot m home cap.toNat (0 + o')) = false)
      (h : microStep (s.withDatapath (probeAt q home cap.toNat o d)) = t) :
      Reaches cap.toNat (s.withDatapath (probeAt q home cap.toNat 0 d)) t :=
    ((hpass ho hb).trans (.step (n := 0) h (.refl t))).mono (by omega)
  rcases probeFrom_cases (m := m) (home := home) (c := cap.toNat) (hit := hit) (stop := stop)
    cap.toNat 0 with ⟨o, ho, hh, hb, e⟩ | ⟨o, ho, hh, hs, hb, e⟩ | ⟨hb, e⟩
  · rw [Nat.zero_add] at hh e
    exact .inl ⟨o, ho, by rw [e], hlast ho hb (by rw [hturn o ho, if_pos hh])⟩
  · rw [Nat.zero_add] at hh hs e
    refine .inr (.inl ⟨o, ho, by rw [e], hs, hlast ho hb ?_⟩)
    rw [hturn o ho, hh, if_neg Bool.false_ne_true, if_pos hs]
  · obtain ⟨hh, hs⟩ := hb (cap.toNat - 1) (by omega)
    rw [Nat.zero_add] at hh hs
    refine .inr (.inr ⟨by rw [e], hlast (o := cap.toNat - 1) (by omega)
      (fun o ho => hb o (by omega)) ?_⟩)
    rw [hturn _ (by omega), hh, hs, if_neg Bool.false_ne_true, if_neg Bool.false_ne_true,
      advanceProbe_last (by omega)]

end Probe

end Sys2Proof.Machine
end

section
/-! The statement on LOOKUP by micro-steps; and the micro-steps that INSERT and REMOVE share with
it: HASH, PROBE, RESPOND (43_sequencer.md R720, 41_probe_cam.md R503, R504). -/

namespace Sys2Proof.Machine

variable {s t u v w : State} {n a b p : Nat} {q : FsmState} {d d' : Datapath} {op : BitVec 2}
  {k : Word64}

/-! ### States of a command -/

/-- `u` is `t` with the FSM in state `q`, at work for the command with the registers of `d`. -/
def WorksAt (q : FsmState) (d : Datapath) (t u : State) : Prop :=
  u = t.withDatapath u.dp ∧ u.dp.fsm = q ∧ SameCommand d u.dp

theorem WorksAt.exists_datapath (h : WorksAt q d t u) :
    ∃ d', u = t.withDatapath d' ∧ d'.fsm = q ∧ SameCommand d d' := ⟨u.dp, h⟩

/-- Within `n` micro-steps of `v` the FSM is in state `q`, at work on `t`. -/
def ReachesAt (n : Nat) (v : State) (q : FsmState) (d : Datapath) (t : State) : Prop :=
  ∃ u, Reaches n v u ∧ WorksAt q d t u

theorem ReachesAt.then (h : ReachesAt a v q d t) (h' : ∀ u, WorksAt q d t u → Reaches b u w) :
    Reaches (a + b) v w := by
  obtain ⟨u, hrun, hu⟩ := h
  exact hrun.trans (h' u hu)

/-- The registers of a command once it has hashed (42_commands.md R601 to R603). -/
abbrev hashedDatapath (op : BitVec 2) (key : Word64) (s : State) : Datapath :=
  { commandDatapath op key with
    hash := s.hash64 key, home := BitVec.ofNat 32 (s.homeOf key s.capacity.toNat) }

/-- HASH is one micro-step; the probe then stands at the home index (40_hash_engine.md R405). -/
theorem microStep_beginCommand (hop : op ≠ opReserved) (hcap : 0 < s.capacity.toNat) (key : Word64) :
    microStep (beginCommand op key s)
      = s.withDatapath (probeAt .probe (s.homeOf key s.capacity.toNat) s.capacity.toNat 0
          (hashedDatapath op key s)) := by
  have hbegin : beginCommand op key s
      = s.withDatapath { commandDatapath op key with fsm := .hash } := by
    rw [beginCommand, if_neg hop]
  rw [hbegin]
  exact startProbe_eq (Nat.mod_lt _ hcap) s

/-- RESPOND is one micro-step (42_commands.md R607). -/
theorem WorksAt.responds (h : WorksAt .respond d t u) :
    Reaches 1 u (respond (datapathResponse (t.withDatapath d)) t) := by
  obtain ⟨d', rfl, hfsm, hd⟩ := h.exists_datapath
  have hstep : microStep (t.withDatapath d')
      = respond (datapathResponse (t.withDatapath d')) t := by rw [microStep, hfsm]; rfl
  have hsame : datapathResponse (t.withDatapath d') = datapathResponse (t.withDatapath d) := by
    rw [hd]; rfl
  exact .step (hstep.trans (by rw [hsame])) (.refl _)

/-- The registers once the probe has found slot `p`. -/
abbrev Datapath.foundAt (d : Datapath) (p : Nat) : Datapath :=
  { d with found := some (BitVec.ofNat 32 p) }

/-- The registers with the event bits gathered. -/
abbrev Datapath.withEvents (d : Datapath) (ev : Events) : Datapath := { d with ev := ev }

/-- The registers of an INSERT, LOOKUP or REMOVE with a slot found make its OK response. -/
theorem datapathResponse_found (hop : op ≠ opReserved) (key : Word64) (p : Nat) (s t : State)
    (ev : Events) :
    datapathResponse (t.withDatapath (((hashedDatapath op key s).foundAt p).withEvents ev))
      = okResponse op key p s t ev := if_neg hop

theorem datapathResponse_notFound (hop : op ≠ opReserved) (h : s.keySlot k = none) :
    datapathResponse (s.withDatapath (hashedDatapath op k s)) = probeResponse op k s := by
  rw [probeResponse_notFound (keySlot_eq_none_iff.1 h)]
  exact if_neg hop

/-! ### PROBE -/

/-- The found position is latched from P (41_probe_cam.md R502). -/
abbrev latchFound (s : State) : State := s.withDatapath { s.dp with found := some s.dp.pos }

theorem microProbe_insert (h : s.dp.op = opInsert) : microProbe s
    = if (s.slot s.dp.pos.toNat).isEmpty then goTo .write (latchFound s)
      else advanceProbe s.capacity (raiseFault .probeFull s.dp.op s.dp.key) s := if_pos h

theorem microProbe_key (h : s.dp.op ≠ opInsert) : microProbe s
    = if (s.slot s.dp.pos.toNat).holds s.dp.key then
        goTo (if s.dp.op = opLookup then .respond else .write) (latchFound s)
      else if s.lookupEmptyStop && (s.slot s.dp.pos.toNat).isEmpty then goTo .respond s
      else advanceProbe s.capacity (goTo .respond) s := if_neg h

/-- What a turn of a probe reads from the active bank. -/
theorem slot_pos_probeAt {o home : Nat} (hcap : 0 < s.capacity.toNat) (d : Datapath) :
    let u := s.withDatapath (probeAt .probe home s.capacity.toNat o d)
    u.slot u.dp.pos.toNat = probedSlot s.table home s.capacity.toNat o := by
  have hpos : (home + o) % s.capacity.toNat < s.capacity.toNat := Nat.mod_lt _ hcap
  have hwidth := s.capacity.isLt
  exact congrArg (Memory.read .empty s.table) 
    (toNat_ofNat_of_lt (N := (home + o) % s.capacity.toNat) (by omega))

/-- The first state of PROBE, for a command on key `k`. -/
abbrev probeStart (k : Word64) (d : Datapath) (s : State) : State :=
  s.withDatapath (probeAt .probe (s.homeOf k s.capacity.toNat) s.capacity.toNat 0 d)

/-- The insertion probe of INSERT by micro-steps. -/
theorem insertProbe_reaches (hcap : 0 < s.capacity.toNat) (hop : d.op = opInsert) (k : Word64) :
    (∃ p, s.freeSlot k = some p ∧ ReachesAt s.capacity.toNat (probeStart k d s) .write
        (d.foundAt p) s)
      ∨ (s.freeSlot k = none ∧ Reaches s.capacity.toNat (probeStart k d s)
        (raiseFault .probeFull d.op d.key s)) := by
  have hprobe := probe_reaches (s := s) (q := .probe) (home := s.homeOf k s.capacity.toNat) (d := d)
    (m := s.table) (hit := Slot.isEmpty) (stop := fun _ => false)
    (onHit := fun u => goTo .write (latchFound u)) (onStop := id)
    (miss := raiseFault .probeFull d.op d.key) hcap fun o _ => by
      rw [← slot_pos_probeAt hcap d]
      exact microProbe_insert (s := s.withDatapath (probeAt _ _ _ o d)) hop
  rcases hprobe with ⟨o, -, hfound, hrun⟩ | ⟨o, -, -, hstop, -⟩ | ⟨hnone, hrun⟩
  · exact .inl ⟨_, hfound, _, hrun, rfl, rfl, rfl⟩
  · cases hstop
  · exact .inr ⟨hnone, hrun⟩

/-- The key probe of LOOKUP and REMOVE by micro-steps. -/
theorem keyProbe_reaches (hcap : 0 < s.capacity.toNat) (hop : d.op ≠ opInsert) :
    (∃ p, s.keySlot d.key = some p ∧ ReachesAt s.capacity.toNat (probeStart d.key d s)
        (if d.op = opLookup then .respond else .write)
        (d.foundAt p) s)
      ∨ (s.keySlot d.key = none
        ∧ ReachesAt s.capacity.toNat (probeStart d.key d s) .respond d s) := by
  have hprobe := probe_reaches (s := s) (q := .probe) (home := s.homeOf d.key s.capacity.toNat)
    (d := d) (m := s.table) (hit := Slot.holds d.key)
    (stop := fun v => s.lookupEmptyStop && v.isEmpty)
    (onHit := fun u => goTo (if d.op = opLookup then .respond else .write) (latchFound u))
    (onStop := goTo .respond) (miss := goTo .respond) hcap fun o _ => by
      rw [← slot_pos_probeAt hcap d]
      exact microProbe_key (s := s.withDatapath (probeAt _ _ _ o d)) hop
  rcases hprobe with ⟨o, -, hfound, hrun⟩ | ⟨o, -, hnone, -, hrun⟩ | ⟨hnone, hrun⟩
  · exact .inl ⟨_, hfound, _, hrun, rfl, rfl, rfl⟩
  · exact .inr ⟨hnone, _, hrun, rfl, rfl, rfl⟩
  · exact .inr ⟨hnone, _, hrun, rfl, rfl, rfl⟩

/-! ### LOOKUP -/

theorem lookup_reaches (hcap : 0 < s.capacity.toNat) (k : Word64) :
    Reaches (s.capacity.toNat + 2) (beginCommand opLookup k s) (runLookup k s) := by
  have hop : opLookup ≠ opReserved := by decide
  refine .step (microStep_beginCommand hop hcap k) ?_
  rcases keyProbe_reaches (d := hashedDatapath opLookup k s) hcap
    (show opLookup ≠ opInsert by decide) with
    ⟨p, hfound, hrun⟩ | ⟨hnone, hrun⟩
  · have hresponse : datapathResponse (s.withDatapath ((hashedDatapath opLookup k s).foundAt p))
        = probeResponse opLookup k s :=
      (datapathResponse_found hop k p s s Events.none).trans
        (probeResponse_found (keySlot_eq_some_iff.1 hfound) _).symm
    rw [runLookup, ← hresponse]
    exact hrun.then fun u hu => hu.responds
  · rw [runLookup, ← datapathResponse_notFound hop hnone]
    exact hrun.then fun u hu => hu.responds

/-- Settles O56: HASH, at most CAPACITY turns of the probe, RESPOND. -/
theorem lookupByMicroSteps : Obligations.LookupByMicroSteps := by
  intro k s t _ ha hexec
  cases (exec_lookup_accepted ha k).symm.trans hexec
  obtain ⟨-, -, -, hone, -⟩ := ha
  exact (lookup_reaches hone k).microSteps_eq rfl

end Sys2Proof.Machine
end

section
/-! SUPPORT. A rebuild by micro-steps: its clearing loop, its scan of the old array with the
placement probes, its commit (43_sequencer.md R707, R720). -/

namespace Sys2Proof.Machine

variable {s t : State} {b : BitVec 1} {m fresh : Memory Slot} {d d' : Datapath} {i j n N : Nat}

/-! ### States of a loop -/

/-- The state of a loop over bank `b`: the bank holds `m`, the registers are `d`, the rest is as in
`t`. -/
abbrev working (t : State) (b : BitVec 1) (m : Memory Slot) (d : Datapath) : State :=
  (t.setBank b m).withDatapath d

theorem working_self (t : State) (b : BitVec 1) (d : Datapath) :
    working t b (t.bank b) d = t.withDatapath d := by rw [working, setBank_self]

theorem working_slotWrite (i : Nat) (v : Slot) :
    (working t b m d).slotWrite b i v = working t b (Memory.write .empty m i v) d := by
  have hbank : (working t b m d).bank b = m := bank_setBank_same t b m
  have hset (m' : Memory Slot) : (working t b m d).setBank b m' = working t b m' d := by
    unfold working State.setBank
    split <;> rfl
  rw [State.slotWrite, hbank, hset]

theorem working_slotRead (i : Nat) : (working t b m d).slotRead b i = Memory.read .empty m i :=
  slotRead_setBank_same t b m i

@[simp] theorem working_capacity : (working t b m d).capacity = t.capacity := setBank_capacity t b m

@[simp] theorem working_active : (working t b m d).active = t.active := setBank_active t b m

theorem working_inactive_slot (i : Nat) : (working t (1 - t.active) m d).slot i = t.slot i := by
  rw [State.slot, working_active]
  exact slotRead_setBank_other t (one_sub_ne _) m i

theorem working_hash64 : (working t b m d).hash64 = t.hash64 :=
  hash64_congr (setBank_ht t b m) (setBank_htw t b m) (setBank_freeCtr t b m)

/-! ### Clearing -/

theorem clearBelow_zero (m : Memory Slot) : Memory.clearBelow 0 m = m := by simp [Memory.clearBelow]

/-- One turn of a clearing loop (00_scope.md R15). -/
theorem write_clearBelow (hm : Memory.wf .empty m) (i : Nat) :
    Memory.write .empty (Memory.clearBelow i m) i .empty = Memory.clearBelow (i + 1) m := by
  rw [← Memory.clearBelow_eq_loop hm, ← Memory.clearBelow_eq_loop hm, List.range_succ,
    List.foldl_append]
  rfl

/-- The registers of a rebuild that clears slot `i`. -/
abbrev clearingAt (N i : Nat) (d : Datapath) : Datapath :=
  { d with newCap := BitVec.ofNat 32 N, index := BitVec.ofNat 32 i, fsm := .rbClear }

theorem microClear_eq (s : State) : microClear s
    = (s.slotWrite (1 - s.active) s.dp.index.toNat .empty).withDatapath
        (if s.dp.index + 1 = s.dp.newCap then { s.dp with index := 0, fsm := .rbScan }
          else { s.dp with index := s.dp.index + 1 }) := by
  unfold microClear
  dsimp only
  split <;> simp

/-- One slot of the fresh array (43_sequencer.md R707). -/
theorem microStep_clear (hm : Memory.wf .empty (t.bank (1 - t.active))) (hN : N < 2 ^ 32)
    (hi : i < N) :
    microStep (working t (1 - t.active) (Memory.clearBelow i (t.bank (1 - t.active)))
        (clearingAt N i d))
      = working t (1 - t.active) (Memory.clearBelow (i + 1) (t.bank (1 - t.active)))
          (if i + 1 = N then { clearingAt N 0 d with fsm := .rbScan } else clearingAt N (i + 1) d) := by
  have hindex : (BitVec.ofNat 32 i).toNat = i := toNat_ofNat_of_lt (by omega)
  have hend : BitVec.ofNat 32 i + 1 = BitVec.ofNat 32 N ↔ i + 1 = N := by
    rw [ofNat_succ_eq_iff (by rw [toNat_ofNat_of_lt hN]; exact hi), toNat_ofNat_of_lt hN]
  refine (microClear_eq _).trans ?_
  dsimp only
  rw [working_active, working_slotWrite, hindex, write_clearBelow hm, if_congr hend rfl rfl,
    ofNat_succ]
  rfl

/-- The clearing loop of a rebuild. -/
theorem clear_reaches (hm : Memory.wf .empty (t.bank (1 - t.active))) (hN : N < 2 ^ 32)
    (hone : 1 ≤ N) (d : Datapath) :
    Reaches N (t.withDatapath (clearingAt N 0 d))
      (working t (1 - t.active) (Memory.clearBelow N (t.bank (1 - t.active)))
        { clearingAt N 0 d with fsm := .rbScan }) := by
  obtain ⟨n, rfl⟩ : ∃ n, N = n + 1 := ⟨N - 1, by omega⟩
  have hturns := reaches_turns (k := n) (fun i => working t (1 - t.active)
    (Memory.clearBelow i (t.bank (1 - t.active))) (clearingAt (n + 1) i d)) fun i hi => by
      rw [microStep_clear hm hN (by omega), if_neg (by omega)]
  rw [clearBelow_zero, working_self] at hturns
  refine hturns.trans (.step (n := 0) ?_ (.refl _))
  rw [microStep_clear hm hN (by omega), if_pos rfl]

/-! ### Scanning and placing -/

/-- The old-array scan of a rebuild at slot `j` of `c`, or past the last one (43_sequencer.md R707).
-/
def oldSlotAt (c j : Nat) (s : State) : State :=
  if j = c then goTo .rbCommit s
  else s.withDatapath { s.dp with index := BitVec.ofNat 32 j, fsm := .rbScan }

theorem oldSlotAt_lt {c : Nat} (h : j < c) (s : State) : oldSlotAt c j s
    = s.withDatapath { s.dp with index := BitVec.ofNat 32 j, fsm := .rbScan } :=
  if_neg (by omega)

theorem nextOldSlot_eq (hj : j < s.capacity.toNat) (hindex : s.dp.index = BitVec.ofNat 32 j) :
    nextOldSlot s = oldSlotAt s.capacity.toNat (j + 1) s := by
  unfold nextOldSlot oldSlotAt
  rw [hindex, if_congr (ofNat_succ_eq_iff hj) rfl rfl, ofNat_succ]

theorem microRebuildScan_free (h : (s.slot s.dp.index.toNat).isOccupied = false) :
    microRebuildScan s = nextOldSlot s := by
  unfold microRebuildScan
  cases hslot : s.slot s.dp.index.toNat with
  | empty | tombstone => rfl
  | occupied => rw [hslot] at h; cases h

theorem microRebuildScan_key {k : Word64} (h : s.slot s.dp.index.toNat = .occupied k) :
    microRebuildScan s = startProbe (BitVec.ofNat 32 (s.homeOf k s.dp.newCap.toNat)) .rbPlace
      (s.withDatapath { s.dp with placeKey := k }) := by
  unfold microRebuildScan
  rw [h]

theorem microPlace_eq (s : State) : microPlace s
    = if (s.slotRead (1 - s.active) s.dp.pos.toNat).isEmpty then
        nextOldSlot (s.slotWrite (1 - s.active) s.dp.pos.toNat (.occupied s.dp.placeKey))
      else advanceProbe s.dp.newCap (raiseFault .shrinkOverflow s.dp.op s.dp.key) s := rfl

/-- The registers of a rebuild that scans old slot `j`. -/
abbrev scanningAt (j : Nat) (d : Datapath) : Datapath :=
  { d with index := BitVec.ofNat 32 j, fsm := .rbScan }

theorem slot_index_scanningAt (hj : j < t.capacity.toNat) :
    let u := working t (1 - t.active) fresh (scanningAt j d)
    u.slot u.dp.index.toNat = Memory.read .empty t.table j := by
  have hwidth := t.capacity.isLt
  have hindex : (BitVec.ofNat 32 j).toNat = j := toNat_ofNat_of_lt (by omega)
  dsimp only
  rw [hindex, working_inactive_slot]
  rfl

/-- Tombstones and Empty slots of the old array are passed (43_sequencer.md R707). -/
theorem microStep_oldSlot_free (hj : j < t.capacity.toNat)
    (h : (Memory.read .empty t.table j).isOccupied = false) :
    microStep (oldSlotAt t.capacity.toNat j (working t (1 - t.active) fresh d))
      = oldSlotAt t.capacity.toNat (j + 1) (working t (1 - t.active) fresh (scanningAt j d)) := by
  rw [oldSlotAt_lt hj]
  rw [← slot_index_scanningAt hj] at h
  refine (microRebuildScan_free h).trans ?_
  rw [nextOldSlot_eq (j := j) (by simpa using hj) rfl, working_capacity]

/-- A key of the old array starts its placement probe (43_sequencer.md R707). -/
theorem microStep_oldSlot_key {k : Word64} (hj : j < t.capacity.toNat) (hN : N < 2 ^ 32)
    (hone : 1 ≤ N) (hcap : d.newCap = BitVec.ofNat 32 N)
    (h : Memory.read .empty t.table j = .occupied k) :
    microStep (oldSlotAt t.capacity.toNat j (working t (1 - t.active) fresh d))
      = working t (1 - t.active) fresh (probeAt .rbPlace ((t.hash64 k).toNat % N) N 0
          { scanningAt j d with placeKey := k }) := by
  have hto : d.newCap.toNat = N := by rw [hcap, toNat_ofNat_of_lt hN]
  have hhome : (working t (1 - t.active) fresh (scanningAt j d)).homeOf k d.newCap.toNat
      = (t.hash64 k).toNat % N := by rw [State.homeOf, working_hash64, hto]
  rw [oldSlotAt_lt hj]
  rw [← slot_index_scanningAt (d := d) (fresh := fresh) hj] at h
  refine (microRebuildScan_key h).trans ?_
  dsimp only
  rw [hhome]
  exact startProbe_eq (Nat.mod_lt _ hone) _

/-- Placing one key by micro-steps: its probe over the fresh bank, and the slot write in the turn
that finds an Empty slot (43_sequencer.md R707, log entry 27). -/
theorem place_reaches (hN : N < 2 ^ 32) (hone : 1 ≤ N) (hj : j < t.capacity.toNat) (home : Nat)
    (hindex : d.index = BitVec.ofNat 32 j) (hcap : d.newCap = BitVec.ofNat 32 N) :
    (∃ p d', (probeFree fresh home N).found = some p ∧ SameCommand d d' ∧ d'.newCap = d.newCap
        ∧ Reaches N (working t (1 - t.active) fresh (probeAt .rbPlace home N 0 d))
          (oldSlotAt t.capacity.toNat (j + 1) (working t (1 - t.active)
            (Memory.write .empty fresh p (.occupied d.placeKey)) d')))
      ∨ ((probeFree fresh home N).found = none
        ∧ Reaches N (working t (1 - t.active) fresh (probeAt .rbPlace home N 0 d))
          (raiseFault .shrinkOverflow d.op d.key (t.setBank (1 - t.active) fresh))) := by
  have hto : d.newCap.toNat = N := by rw [hcap, toNat_ofNat_of_lt hN]
  have hpos (o : Nat) : (BitVec.ofNat 32 ((home + o) % N)).toNat = (home + o) % N := by
    have := Nat.mod_lt (home + o) hone
    exact toNat_ofNat_of_lt (by omega)
  subst hto
  have hprobe := probe_reaches (s := t.setBank (1 - t.active) fresh) (q := .rbPlace) (home := home)
    (d := d) (cap := d.newCap) (m := fresh) (hit := Slot.isEmpty) (stop := fun _ => false)
    (onHit := fun u => nextOldSlot
      (u.slotWrite (1 - u.active) u.dp.pos.toNat (.occupied u.dp.placeKey)))
    (onStop := id) (miss := raiseFault .shrinkOverflow d.op d.key) hone fun o _ => by
      refine (microPlace_eq _).trans ?_
      dsimp only
      rw [working_active, working_slotRead, hpos]
      rfl
  rcases hprobe with ⟨o, -, hfound, hrun⟩ | ⟨o, -, -, hstop, -⟩ | ⟨hnone, hrun⟩
  · refine .inl ⟨_, probeAt .rbPlace home d.newCap.toNat o d, hfound, rfl, rfl, ?_⟩
    dsimp only at hrun
    rw [working_active, working_slotWrite, hpos, nextOldSlot_eq (j := j) (by simpa using hj) hindex]
      at hrun
    simpa using hrun
  · cases hstop
  · exact .inr ⟨hnone, hrun⟩

/-- The old-array scan by micro-steps is the placement loop: it comes to the commit, or to the fault
of a key without a slot (43_sequencer.md R707, R708). -/
theorem placeFrom_reaches (hN : N < 2 ^ 32) (hone : 1 ≤ N) (hj : j + n = t.capacity.toNat)
    (hcap : d.newCap = BitVec.ofNat 32 N) :
    let placed := placeFrom t.hash64 t.table N n j fresh
    ∃ d', SameCommand d d' ∧ d'.newCap = d.newCap ∧ d'.fsm = .rbCommit
      ∧ Reaches (n * (N + 1))
        (oldSlotAt t.capacity.toNat j (working t (1 - t.active) fresh d))
        (if placed.2 then working t (1 - t.active) placed.1 d'
          else raiseFault .shrinkOverflow d.op d.key (t.setBank (1 - t.active) placed.1)) := by
  have hsub (k : Nat) : (k + 1) * (N + 1) = k * (N + 1) + N + 1 := by rw [Nat.succ_mul]; rfl
  fun_induction placeFrom t.hash64 t.table N n j fresh generalizing d with
  | case1 j fresh =>
    refine ⟨{ d with fsm := .rbCommit }, rfl, rfl, rfl, ?_⟩
    rw [oldSlotAt, if_pos (by omega), if_pos rfl]
    exact .refl _
  | case2 n j fresh k hk p hp ih =>
    have hstep := microStep_oldSlot_key (fresh := fresh) (by omega) hN hone hcap hk
    rcases place_reaches (t := t) (fresh := fresh) (j := j)
      (d := { scanningAt j d with placeKey := k }) hN hone (by omega) ((t.hash64 k).toNat % N) rfl hcap
      with ⟨p', d₁, hp', hd₁, hcap₁, hrun⟩ | ⟨hnone, -⟩
    · obtain rfl : p' = p := Option.some.inj (hp'.symm.trans hp)
      obtain ⟨d', hd', hcap', hfsm, hrest⟩ := ih (d := d₁) (by omega) (hcap₁.trans hcap)
      have hop : d₁.op = d.op := by rw [hd₁]
      have hkey : d₁.key = d.key := by rw [hd₁]
      rw [hop, hkey] at hrest
      exact ⟨d', .trans (hd₁.after rfl) hd', hcap'.trans hcap₁, hfsm,
        (Reaches.step hstep (hrun.trans hrest)).mono (by rw [hsub]; omega)⟩
    · rw [hp] at hnone
      cases hnone
  | case3 n j fresh k hk hp =>
    have hstep := microStep_oldSlot_key (fresh := fresh) (by omega) hN hone hcap hk
    rcases place_reaches (t := t) (fresh := fresh) (j := j)
      (d := { scanningAt j d with placeKey := k }) hN hone (by omega) ((t.hash64 k).toNat % N) rfl hcap
      with ⟨p', d₁, hp', -⟩ | ⟨-, hrun⟩
    · rw [hp] at hp'
      cases hp'
    · exact ⟨{ d with fsm := .rbCommit }, rfl, rfl, rfl,
        (Reaches.step hstep hrun).mono (by rw [hsub]; omega)⟩
  | case4 n j fresh hk ih | case5 n j fresh hk ih =>
    have hstep := microStep_oldSlot_free (fresh := fresh) (d := d) (t := t) (j := j) (by omega)
      (by rw [hk]; rfl)
    obtain ⟨d', hd', hcap', hfsm, hrest⟩ := ih (d := scanningAt j d) (by omega) hcap
    exact ⟨d', hd'.after rfl, hcap', hfsm, (Reaches.step hstep hrest).mono (by rw [hsub]; omega)⟩

/-! ### The whole rebuild -/

/-- RB_COMMIT is one micro-step (43_sequencer.md R707). -/
theorem microStep_commit (hcap : d.newCap = BitVec.ofNat 32 N)
    (hfsm : d.fsm = .rbCommit) :
    microStep (working t (1 - t.active) (t.rebuiltBank N).1 d)
      = (commitRebuild N t).withDatapath { d with fsm := .respond } := by
  have hstep : microStep (working t (1 - t.active) (t.rebuiltBank N).1 d)
      = microCommit (working t (1 - t.active) (t.rebuiltBank N).1 d) := by rw [microStep, hfsm]
  rw [hstep, microCommit, working_active, commitRebuild, ← hcap]
  rfl

/-- A rebuild by micro-steps, from its first clearing turn on: the command's response follows, or
the fault stays. -/
theorem rebuild_reaches (hs : t.storageLegal) (hN : N < 2 ^ 32) (hone : 1 ≤ N)
    (hc : 1 ≤ t.capacity.toNat) (d : Datapath) :
    Reaches (N + t.capacity.toNat * (N + 1) + 2) (t.withDatapath (clearingAt N 0 d))
      ((rebuild d.op d.key N t).finish fun u _ => respond (datapathResponse (u.withDatapath d)) u) := by
  have hclear := clear_reaches (storageLegal_bank hs (1 - t.active)).1 hN hone d
  obtain ⟨d', hd', hcap', hfsm, hplace⟩ := placeFrom_reaches (t := t) (j := 0)
    (n := t.capacity.toNat) (fresh := Memory.clearBelow N (t.bank (1 - t.active)))
    (d := { clearingAt N 0 d with fsm := .rbScan }) hN hone (Nat.zero_add _) rfl
  rw [oldSlotAt_lt hc] at hplace
  have hrun := hclear.trans hplace
  rw [rebuild_eq]
  by_cases hdone : (t.rebuiltBank N).2 = true
  · rw [if_pos hdone] at hrun ⊢
    have hrespond : WorksAt .respond d (commitRebuild N t)
        ((commitRebuild N t).withDatapath { d' with fsm := .respond }) :=
      ⟨rfl, rfl, .trans (hd'.after rfl) rfl⟩
    exact hrun.trans (.step (microStep_commit hcap' hfsm) hrespond.responds)
  · rw [if_neg hdone] at hrun ⊢
    exact hrun.mono (by omega)

end Sys2Proof.Machine
end

section
/-! The statement on START and COMPACT_NOW by micro-steps: START's clearing loop and the two loops
of a compaction (43_sequencer.md R710, R720, 44_register_ops.md R805, R807). -/

namespace Sys2Proof.Machine

variable {s t u : State} {m : Memory Slot} {d d' : Datapath} {i j n c size : Nat}
  {start : Option Nat}

/-! ### START -/

theorem microInitClear_next (h : ¬ s.dp.index + 1 = s.initCapacity) : microInitClear s
    = (s.slotWrite 0 s.dp.index.toNat .empty).withDatapath
        { s.dp with index := s.dp.index + 1 } := by
  unfold microInitClear
  dsimp only
  rw [if_neg h, slotWrite_dp]

/-- The last clearing turn of START commits and replies (44_register_ops.md R805, log entry 27). -/
theorem microInitClear_last (h : s.dp.index + 1 = s.initCapacity) : microInitClear s
    = { s.slotWrite 0 s.dp.index.toNat .empty with
          active := 0, capacity := s.initCapacity, filled := 0, removed := 0, mode := .run,
          dp := Datapath.idle, reply := some ⟨0, false⟩ } := by
  unfold microInitClear
  dsimp only
  rw [if_pos h, slotWrite_initCapacity]
  rfl

/-- The registers of START, clearing slot `i`. -/
abbrev startingAt (i : Nat) : Datapath :=
  { Datapath.idle with ctrl := true, fsm := .initClear, index := BitVec.ofNat 32 i }

theorem start_reaches (hm : Memory.wf .empty s.bank0) (hone : 1 ≤ s.initCapacity.toNat)
    (hdp : s.dp = Datapath.idle) :
    Reaches s.initCapacity.toNat (beginStart s) ((startTable s).answer 0 false) := by
  have hwidth := s.initCapacity.isLt
  obtain ⟨n, hn⟩ : ∃ n, s.initCapacity.toNat = n + 1 := ⟨s.initCapacity.toNat - 1, by omega⟩
  have hwrite (i : Nat) (hi : i ≤ n) :
      (working s 0 (Memory.clearBelow i s.bank0) (startingAt i)).slotWrite 0
          (BitVec.ofNat 32 i).toNat .empty
        = working s 0 (Memory.clearBelow (i + 1) s.bank0) (startingAt i) := by
    rw [toNat_ofNat_of_lt (by omega), working_slotWrite, write_clearBelow hm]
  have hturns := reaches_turns (k := n)
    (fun i => working s 0 (Memory.clearBelow i s.bank0) (startingAt i)) fun i hi => by
      refine (microInitClear_next ?_).trans ?_
      · rw [working, setBank_initCapacity, ofNat_succ_eq_iff (by omega)]; omega
      · rw [hwrite i (by omega), ofNat_succ]
  have hlast : microStep (working s 0 (Memory.clearBelow n s.bank0) (startingAt n))
      = (startTable s).answer 0 false := by
    refine (microInitClear_last ?_).trans ?_
    · rw [working, setBank_initCapacity, ofNat_succ_eq_iff (by omega)]; omega
    · rw [hwrite n (Nat.le_refl n), ← hn, startTable, State.answer, hdp]
      rfl
  have hbegin : working s 0 (Memory.clearBelow 0 s.bank0) (startingAt 0) = beginStart s := by
    rw [clearBelow_zero]
    rfl
  rw [hbegin] at hturns
  rw [hn]
  exact hturns.trans (.step (n := 0) hlast (.refl _))

/-! ### The scan of a compaction -/

theorem scanAt_lt {i : Word32} {start : Option Word32} (h : i.toNat < s.capacity.toNat) :
    scanAt i start s
      = s.withDatapath { s.dp with scan := i, runStart := start, fsm := .compactScan } := if_pos h

/-- The scan is over: COMPACT_NOW replies, a REMOVE goes back to CHECK (43_sequencer.md R710, log
entry 27). -/
def compactDone (s : State) : State :=
  if s.dp.ctrl then { s with removed := 0, dp := Datapath.idle }.answer 0 false
  else { s with removed := 0, dp := { s.dp with fsm := .check } }

theorem scanAt_end {i : Word32} {start : Option Word32} (h : s.capacity.toNat ≤ i.toNat) :
    scanAt i start s = compactDone s := if_neg (by omega)

theorem microScan_tombstone (h : s.slot s.dp.scan.toNat = .tombstone) : microScan s
    = scanAt (s.dp.scan + 1) (some (s.dp.runStart.getD s.dp.scan))
        (s.slotWrite s.active s.dp.scan.toNat .empty) := by
  unfold microScan
  dsimp only
  rw [h]

theorem microScan_empty (h : s.slot s.dp.scan.toNat = .empty) : microScan s
    = scanAt (s.dp.scan + 1) s.dp.runStart s := by
  unfold microScan
  dsimp only
  rw [h]

theorem microScan_occupied_none {k : Word64} (h : s.slot s.dp.scan.toNat = .occupied k)
    (hstart : s.dp.runStart = none) : microScan s = scanAt (s.dp.scan + 1) none s := by
  unfold microScan
  dsimp only
  rw [h, hstart]

theorem microScan_occupied_some {k : Word64} {st : Word32}
    (h : s.slot s.dp.scan.toNat = .occupied k) (hstart : s.dp.runStart = some st) : microScan s
    = s.withDatapath { s.dp with shift := s.dp.scan, fsm := .compactShift } := by
  unfold microScan
  dsimp only
  rw [h, hstart]

/-! ### The shift of a run -/

/-- The size of the gap a run moves across, as the registers give it (43_sequencer.md R710). -/
def Datapath.gapSize (d : Datapath) : Nat := d.scan.toNat - (d.runStart.getD d.scan).toNat

/-- The registers of a compaction that moves slot `j`. -/
abbrev shiftingAt (j : Nat) (d : Datapath) : Datapath :=
  { d with shift := BitVec.ofNat 32 j, fsm := .compactShift }

theorem working_slot (i : Nat) : (working t t.active m d).slot i = Memory.read .empty m i := by
  rw [State.slot, working_active, working_slotRead]

/-- One turn of the inner loop: the key of slot `j` moves; the next slot, if Occupied, is the next
turn (43_sequencer.md R710). -/
theorem microStep_shift {k : Word64} (hj : j < t.capacity.toNat)
    (hk : Memory.read .empty m j = .occupied k) :
    microStep (working t t.active m (shiftingAt j d))
      = if j + 1 < t.capacity.toNat
            ∧ (Memory.read .empty (shiftSlot d.gapSize j k m) (j + 1)).isOccupied = true then
          working t t.active (shiftSlot d.gapSize j k m) (shiftingAt (j + 1) d)
        else scanAt (BitVec.ofNat 32 (j + 1)) none
          (working t t.active (shiftSlot d.gapSize j k m) (shiftingAt j d)) := by
  have hwidth := t.capacity.isLt
  have hto : (BitVec.ofNat 32 j).toNat = j := toNat_ofNat_of_lt (by omega)
  have hto' : (BitVec.ofNat 32 (j + 1)).toNat = j + 1 := toNat_ofNat_of_lt (by omega)
  show microShift _ = _
  unfold microShift
  dsimp only
  rw [working_slot, working_active, working_slotWrite, working_slotWrite, hto, hk, ofNat_succ]
  rw [hto', working_slot, setBank_capacity]
  refine if_congr ?_ rfl rfl
  rw [Bool.and_eq_true, decide_eq_true_iff]
  rfl

theorem shiftRun_occupied_turn {k : Word64} (hj : j < c) (hk : Memory.read .empty m j = .occupied k) :
    shiftRun c size (n + 1) j m = shiftRun c size n (j + 1) (shiftSlot size j k m) := by
  rw [shiftRun, if_pos hj, hk]

theorem shiftRun_stop (h : j < c → (Memory.read .empty m j).isOccupied = false) :
    shiftRun c size n j m = (m, j) := by
  cases n with
  | zero => rfl
  | succ n =>
    unfold shiftRun
    split
    · have hfree := h ‹_›
      cases hk : Memory.read .empty m j with
      | empty | tombstone => rfl
      | occupied => rw [hk] at hfree; cases hfree
    · rfl

/-- The inner loop by micro-steps, one for each slot of the run; its last turn goes on with the
scan. -/
theorem shiftRun_reaches {k : Word64} (hj : j < t.capacity.toNat) (hn : t.capacity.toNat ≤ j + n)
    (hk : Memory.read .empty m j = .occupied k) :
    let moved := shiftRun t.capacity.toNat d.gapSize n j m
    j < moved.2 ∧ ∃ d', SameCommand d d'
      ∧ Reaches (moved.2 - j) (working t t.active m (shiftingAt j d))
        (scanAt (BitVec.ofNat 32 moved.2) none (working t t.active moved.1 d')) := by
  induction n generalizing j m k with
  | zero => omega
  | succ n ih =>
    dsimp only
    have hstep := microStep_shift (t := t) (d := d) hj hk
    rw [shiftRun_occupied_turn hj hk]
    by_cases hmore : j + 1 < t.capacity.toNat
      ∧ (Memory.read .empty (shiftSlot d.gapSize j k m) (j + 1)).isOccupied = true
    · rw [if_pos hmore] at hstep
      obtain ⟨hj', hocc⟩ := hmore
      cases hk' : Memory.read .empty (shiftSlot d.gapSize j k m) (j + 1) with
      | empty | tombstone => rw [hk'] at hocc; cases hocc
      | occupied k' =>
        obtain ⟨hlt, d', hd', hrest⟩ := ih hj' (by omega) hk'
        exact ⟨by omega, d', hd', (Reaches.step hstep hrest).mono (by omega)⟩
    · rw [if_neg hmore] at hstep
      rw [shiftRun_stop fun hj' => Bool.eq_false_iff.2 fun hocc => hmore ⟨hj', hocc⟩]
      exact ⟨by omega, shiftingAt j d, rfl, (Reaches.step (n := 0) hstep (.refl _)).mono (by omega)⟩

/-! ### The whole compaction -/

/-- The registers of a compaction that scans slot `i`. -/
abbrev compactingAt (i : Nat) (start : Option Nat) (d : Datapath) : Datapath :=
  { d with scan := BitVec.ofNat 32 i, runStart := start.map (BitVec.ofNat 32), fsm := .compactScan }

theorem slot_scan_compactingAt (hi : i < t.capacity.toNat) :
    let u := working t t.active m (compactingAt i start d)
    u.slot u.dp.scan.toNat = Memory.read .empty m i := by
  have hwidth := t.capacity.isLt
  have hto : (BitVec.ofNat 32 i).toNat = i := toNat_ofNat_of_lt (by omega)
  dsimp only
  rw [hto, working_slot]

theorem scanAt_working (hi : i < t.capacity.toNat) :
    scanAt (BitVec.ofNat 32 i) (start.map (BitVec.ofNat 32)) (working t t.active m d)
      = working t t.active m (compactingAt i start d) := by
  have hwidth := t.capacity.isLt
  exact scanAt_lt (by rw [working_capacity, toNat_ofNat_of_lt (by omega)]; exact hi)

theorem microStep_scan_tombstone (hi : i < t.capacity.toNat)
    (hk : Memory.read .empty m i = .tombstone) :
    microStep (working t t.active m (compactingAt i start d))
      = scanAt (BitVec.ofNat 32 (i + 1)) ((some (start.getD i)).map (BitVec.ofNat 32))
          (working t t.active (Memory.write .empty m i .empty) (compactingAt i start d)) := by
  have hwidth := t.capacity.isLt
  have hto : (BitVec.ofNat 32 i).toNat = i := toNat_ofNat_of_lt (by omega)
  refine (microScan_tombstone ((slot_scan_compactingAt hi).trans hk)).trans ?_
  dsimp only
  rw [working_active, hto, working_slotWrite, ofNat_succ, Option.getD_map]
  rfl

theorem microStep_scan_empty (hi : i < t.capacity.toNat) (hk : Memory.read .empty m i = .empty) :
    microStep (working t t.active m (compactingAt i start d))
      = scanAt (BitVec.ofNat 32 (i + 1)) (start.map (BitVec.ofNat 32))
          (working t t.active m (compactingAt i start d)) := by
  refine (microScan_empty ((slot_scan_compactingAt hi).trans hk)).trans ?_
  dsimp only
  rw [ofNat_succ]

theorem microStep_scan_occupied_none {k : Word64} (hi : i < t.capacity.toNat)
    (hk : Memory.read .empty m i = .occupied k) :
    microStep (working t t.active m (compactingAt i none d))
      = scanAt (BitVec.ofNat 32 (i + 1)) none (working t t.active m (compactingAt i none d)) := by
  refine (microScan_occupied_none ((slot_scan_compactingAt hi).trans hk) rfl).trans ?_
  dsimp only
  rw [ofNat_succ]

theorem microStep_scan_occupied_some {k : Word64} {st : Nat} (hi : i < t.capacity.toNat)
    (hk : Memory.read .empty m i = .occupied k) :
    microStep (working t t.active m (compactingAt i (some st) d))
      = working t t.active m (shiftingAt i (compactingAt i (some st) d)) :=
  microScan_occupied_some ((slot_scan_compactingAt hi).trans hk) rfl

/-- With the scan at the end of the table a compaction is over. -/
theorem scanAt_working_end (hi : i = t.capacity.toNat) (start : Option Word32) :
    scanAt (BitVec.ofNat 32 i) start (working t t.active m d)
      = compactDone (working t t.active m d) := by
  have hwidth := t.capacity.isLt
  exact scanAt_end (by rw [working_capacity, toNat_ofNat_of_lt (by omega)]; omega)

/-- The outer loop by micro-steps: two for each slot suffice, one that passes or moves it and, at
the first slot of a run, one that meets it. -/
theorem compactFrom_reaches (hi : i ≤ t.capacity.toNat) (hn : t.capacity.toNat ≤ i + n)
    (hst : ∀ st, start = some st → st ≤ i) (d : Datapath) :
    ∃ d', SameCommand d d' ∧ Reaches (2 * (t.capacity.toNat - i))
      (scanAt (BitVec.ofNat 32 i) (start.map (BitVec.ofNat 32)) (working t t.active m d))
      (compactDone (working t t.active (compactFrom t.capacity.toNat n i start m) d')) := by
  have hwidth := t.capacity.isLt
  fun_induction compactFrom t.capacity.toNat n i start m generalizing d with
  | case1 | case6 =>
    refine ⟨d, .refl d, ?_⟩
    rw [scanAt_working_end (by omega)]
    exact .refl _
  | case2 n i start m hlt hk ih =>
    have hst' : ∀ st, some (start.getD i) = some st → st ≤ i + 1 := by
      rintro st ⟨⟩
      cases start with
      | none => simp
      | some st => exact Nat.le_succ_of_le (hst st rfl)
    obtain ⟨d', hd', hrest⟩ := ih (by omega) (by omega) hst' (compactingAt i start d)
    rw [scanAt_working hlt]
    exact ⟨d', hd'.after rfl,
      (Reaches.step (microStep_scan_tombstone hlt hk) hrest).mono (by omega)⟩
  | case3 n i start m hlt hk ih =>
    obtain ⟨d', hd', hrest⟩ := ih (by omega) (by omega)
      (fun st h => Nat.le_succ_of_le (hst st h)) (compactingAt i start d)
    rw [scanAt_working hlt]
    exact ⟨d', hd'.after rfl, (Reaches.step (microStep_scan_empty hlt hk) hrest).mono (by omega)⟩
  | case4 n i m hlt k hk ih =>
    obtain ⟨d', hd', hrest⟩ := ih (by omega) (by omega) (fun st h => nomatch h)
      (compactingAt i none d)
    rw [scanAt_working hlt]
    exact ⟨d', hd'.after rfl,
      (Reaches.step (microStep_scan_occupied_none hlt hk) hrest).mono (by omega)⟩
  | case5 n i m hlt k hk st moved ih =>
    have hle := hst st rfl
    have hgap : (compactingAt i (some st) d).gapSize = i - st := by
      show (BitVec.ofNat 32 i).toNat - (BitVec.ofNat 32 st).toNat = _
      rw [toNat_ofNat_of_lt (by omega), toNat_ofNat_of_lt (by omega)]
    have hbound : moved.2 ≤ t.capacity.toNat := (shiftRun_bounds _ _ _).2 hi
    have hshift := shiftRun_reaches (n := t.capacity.toNat - i)
      (d := compactingAt i (some st) d) hlt (by omega) hk
    rw [hgap] at hshift
    obtain ⟨hadv, d₁, hd₁, hrun⟩ : i < moved.2 ∧ ∃ d₁, SameCommand (compactingAt i (some st) d) d₁
        ∧ Reaches (moved.2 - i)
          (working t t.active m (shiftingAt i (compactingAt i (some st) d)))
          (scanAt (BitVec.ofNat 32 moved.2) none (working t t.active moved.1 d₁)) := hshift
    obtain ⟨d', hd', hrest⟩ := ih hbound (by omega) (fun st h => nomatch h) d₁
    rw [scanAt_working hlt]
    exact ⟨d', .trans (hd₁.after rfl) hd', (Reaches.step
      (microStep_scan_occupied_some hlt hk) (hrun.trans hrest)).mono (by omega)⟩

/-- A compaction by micro-steps. -/
theorem compactTable_reaches (s : State) (d : Datapath) :
    ∃ d', SameCommand d d' ∧ Reaches (2 * s.capacity.toNat) (scanAt 0 none (s.withDatapath d))
      (compactDone ((compactTable s).withDatapath d')) := by
  obtain ⟨d', hd', hrun⟩ := compactFrom_reaches (t := s) (m := s.table) (n := s.capacity.toNat)
    (start := none) (Nat.zero_le _) (by omega) (fun st h => nomatch h) d
  rw [working_self] at hrun
  refine ⟨d', hd', ?_⟩
  have hdone : compactDone ((compactTable s).withDatapath d')
      = compactDone (working s s.active (compactBank s.capacity.toNat s.table) d') := by
    unfold compactDone
    rfl
  rw [hdone]
  exact hrun

/-! ### CTRL actions -/

theorem exec_start (hb : s.busy = false) (hlegal : s.startLegal = true) :
    exec .start s = .next ((startTable s).answer 0 false) := by
  rw [exec, execStart, onRegisterPort_idle hb, if_pos hlegal]

theorem exec_compactNow (hb : s.busy = false) (hm : s.mode = .run)
    (hc : s.capacityInRange = true) :
    exec .compactNow s = .next ((compactTable s).answer 0 false) := by
  rw [exec, execCompactNow, onRegisterPort_idle hb, if_pos hm, if_pos hc]

/-- COMPACT_NOW by micro-steps, its reply in the last turn (44_register_ops.md R807). -/
theorem compactNow_reaches (hone : 0 < s.capacity.toNat) (hdp : s.dp = Datapath.idle) :
    Reaches (2 * s.capacity.toNat) (beginCompactNow s) ((compactTable s).answer 0 false) := by
  obtain ⟨d', hd', hrun⟩ := compactTable_reaches s { Datapath.idle with ctrl := true }
  have hctrl : d'.ctrl = true := by rw [hd']
  have hidle : (compactTable s).dp = Datapath.idle := by
    rw [sameButTable_compactTable s]; exact hdp
  have hdone : compactDone ((compactTable s).withDatapath d') = (compactTable s).answer 0 false := by
    rw [compactDone, if_pos hctrl, ← hidle]
    rfl
  have hbegin : scanAt 0 none (s.withDatapath { Datapath.idle with ctrl := true })
      = beginCompactNow s := if_pos hone
  rw [← hbegin, ← hdone]
  exact hrun

/-- Settles O58: the clearing loop of START, and the scan of COMPACT_NOW with its shifts. -/
theorem ctrlActionsByMicroSteps : Obligations.CtrlActionsByMicroSteps := by
  intro s t hs
  refine ⟨fun hlegal hexec => ?start, fun hm hexec => ?compact⟩
  case start =>
    have hone : 1 ≤ s.initCapacity.toNat := by
      simp only [State.startLegal, Bool.and_eq_true, decide_eq_true_eq] at hlegal
      omega
    cases (exec_start hs.not_busy hlegal).symm.trans hexec
    refine (start_reaches (storageLegal_bank hs.storageLegal 0).1 hone hs.dp_eq).microSteps_eq ?_
    rw [answer_dp, startTable_dp, hs.dp_eq]
    rfl
  case compact =>
    cases (exec_compactNow hs.not_busy hm (hs.capacityInRange hm)).symm.trans hexec
    obtain ⟨hone, -⟩ := tableLegal_capacity (hs.tableLegal (by rw [hm]; simp))
    refine (compactNow_reaches hone hs.dp_eq).microSteps_eq ?_
    rw [answer_dp, sameButTable_compactTable s, hs.dp_eq]
    rfl

end Sys2Proof.Machine
end

section
/-! The statement on INSERT and REMOVE by micro-steps: WRITE, CHECK and the cascades after them
(43_sequencer.md R701, R702, R720, R721). -/

namespace Sys2Proof.Machine

variable {s t u : State} {d d' : Datapath} {p : Nat} {k : Word64}

/-! ### WRITE -/

theorem slotWrite_withDatapath (s : State) (d : Datapath) (b : BitVec 1) (i : Nat) (v : Slot) :
    (s.withDatapath d).slotWrite b i v = (s.slotWrite b i v).withDatapath d := by
  unfold State.slotWrite State.setBank
  split <;> rfl

theorem microWrite_insert (h : s.dp.op = opInsert) : microWrite s
    = goTo .check { s.slotWrite s.active (s.dp.found.getD 0).toNat (.occupied s.dp.key) with
        filled := s.filled + 1 } := if_pos h

theorem microWrite_remove (h : s.dp.op ≠ opInsert) : microWrite s
    = goTo .check { s.slotWrite s.active (s.dp.found.getD 0).toNat .tombstone with
        removed := s.removed + 1, filled := s.filled - 1 } := if_neg h

/-- The slot write of an INSERT (42_commands.md R601). -/
theorem WorksAt.writes_insert (h : WorksAt .write (d.foundAt p) s u) (hop : d.op = opInsert)
    (hp : p < 2 ^ 32) : WorksAt .check (d.foundAt p) (insertSlot p d.key s) (microStep u) := by
  obtain ⟨d', rfl, hfsm, hd⟩ := h.exists_datapath
  have hop' : d'.op = opInsert := by rw [hd]; exact hop
  have hkey : d'.key = d.key := by rw [hd]
  have hfound : (d'.found.getD 0).toNat = p := by rw [hd]; exact toNat_ofNat_of_lt hp
  have hstep : microStep (s.withDatapath d')
      = (insertSlot p d'.key s).withDatapath { d' with fsm := .check } := by
    rw [microStep, hfsm]
    refine (microWrite_insert hop').trans ?_
    rw [slotWrite_withDatapath, hfound]
    rfl
  rw [← hkey, hstep]
  exact ⟨rfl, rfl, .trans hd rfl⟩

/-- The slot write of a REMOVE (42_commands.md R603). -/
theorem WorksAt.writes_remove (h : WorksAt .write (d.foundAt p) s u) (hop : d.op ≠ opInsert)
    (hp : p < 2 ^ 32) : WorksAt .check (d.foundAt p) (removeSlot p s) (microStep u) := by
  obtain ⟨d', rfl, hfsm, hd⟩ := h.exists_datapath
  have hop' : d'.op ≠ opInsert := by rw [hd]; exact hop
  have hfound : (d'.found.getD 0).toNat = p := by rw [hd]; exact toNat_ofNat_of_lt hp
  have hstep : microStep (s.withDatapath d')
      = (removeSlot p s).withDatapath { d' with fsm := .check } := by
    rw [microStep, hfsm]
    refine (microWrite_remove hop').trans ?_
    rw [slotWrite_withDatapath, hfound]
    rfl
  rw [hstep]
  exact ⟨rfl, rfl, .trans hd rfl⟩

/-! ### CHECK after an INSERT -/

theorem microStep_check (h : s.dp.fsm = .check) : microStep s = microCheck s := by
  rw [microStep, h]

/-- How the command whose registers are `d` answers, from table state `t` with events `ev`. -/
def respondWith (d : Datapath) (t : State) (ev : Events) : State :=
  respond (datapathResponse (t.withDatapath (d.withEvents ev))) t

theorem respondWith_congr (h : SameCommand d d') : respondWith d' = respondWith d := by
  funext t ev
  unfold respondWith
  rw [h]
  rfl

/-- How many micro-steps a rebuild of `c` slots into `n`, its commit and the response take at most.
-/
def rebuildTurns (c n : Nat) : Nat := n + c * (n + 1) + 2

/-- A rebuild started in CHECK, with its event bit set (log entry 26). -/
theorem startRebuild_reaches (ht : t.Sound) (hm : t.mode ≠ .config) {N : Nat} (hone : 1 ≤ N)
    (hN : N < 2 ^ 32) (ev : Events) (d : Datapath) :
    Reaches (rebuildTurns t.capacity.toNat N)
      (startRebuild (BitVec.ofNat 32 N) (t.withDatapath (d.withEvents ev)))
      ((rebuild d.op d.key N t).finish fun u _ => respondWith d u ev) := by
  obtain ⟨hcap, -⟩ := tableLegal_capacity (ht.tableLegal hm)
  exact rebuild_reaches ht.storageLegal hN hone hcap (d.withEvents ev)

theorem microCheck_insert (h : s.dp.op = opInsert) : microCheck s
    = if s.growCond then
        if s.capMax < 2 * s.capacity.toNat then raiseFault .growOverflow s.dp.op s.dp.key s
        else startRebuild (BitVec.ofNat 32 (2 * s.capacity.toNat))
          (s.withDatapath (s.dp.withEvents { s.dp.ev with grow := true }))
      else goTo .respond s := if_pos h

theorem postInsert_finish (h : s.growCond = true) (f : State → Events → State) :
    (postInsert k s).finish f
      = (growTable opInsert k s).finish fun u _ => f u { Events.none with grow := true } := by
  rw [postInsert, if_pos h]
  cases growTable opInsert k s <;> rfl

/-- CHECK of an INSERT, and the GROW it may start (43_sequencer.md R701). -/
theorem WorksAt.checks_insert (h : WorksAt .check d t u) (hop : d.op = opInsert)
    (hev : d.ev = Events.none) (ht : t.Sound) (hm : t.mode ≠ .config) :
    Reaches (rebuildTurns t.capacity.toNat (2 * t.capacity.toNat) + 1) u
      ((postInsert d.key t).finish (respondWith d)) := by
  obtain ⟨d', rfl, hfsm, hd⟩ := h.exists_datapath
  obtain ⟨hcap, hmax⟩ := tableLegal_capacity (ht.tableLegal hm)
  obtain ⟨-, hlimit⟩ := ht.buildLegal
  unfold capacityLimit at hlimit
  have hop' : d'.op = opInsert := by rw [hd]; exact hop
  have hkey : d'.key = d.key := by rw [hd]
  have hev' : d'.ev = Events.none := by rw [hd]; exact hev
  have hcheck := (microStep_check (s := t.withDatapath d') hfsm).trans (microCheck_insert hop')
  rw [← respondWith_congr hd, ← hkey]
  by_cases hgrow : t.growCond = true
  · rw [if_pos (show (t.withDatapath d').growCond = true from hgrow)] at hcheck
    rw [postInsert_finish hgrow, ← hop']
    by_cases hover : t.capMax < 2 * t.capacity.toNat
    · rw [if_pos (show (t.withDatapath d').capMax < _ from hover)] at hcheck
      rw [growTable_overflow hover]
      exact (Reaches.step (n := 0) hcheck (.refl _)).mono (by omega)
    · rw [if_neg (show ¬ (t.withDatapath d').capMax < _ from hover)] at hcheck
      rw [growTable_rebuilds (Nat.not_lt.1 hover), ← hev']
      exact .step hcheck (startRebuild_reaches ht hm (by omega) (by omega) _ d')
  · rw [if_neg (show ¬ (t.withDatapath d').growCond = true from hgrow)] at hcheck
    rw [postInsert, if_neg hgrow, ← hev']
    have hresponds : WorksAt .respond d' t (goTo .respond (t.withDatapath d')) := ⟨rfl, rfl, rfl⟩
    exact (Reaches.step hcheck hresponds.responds).mono (by unfold rebuildTurns; omega)

/-! ### CHECK after a REMOVE -/

theorem microCheck_remove (h : s.dp.op ≠ opInsert) : microCheck s
    = if s.cleanCond then
        s.withDatapath { s.dp with ev := { s.dp.ev with compact := true }, scan := 0,
                                   runStart := none, fsm := .compactScan }
      else if s.shrinkCond && decide (1 < s.capacity.toNat) then
        startRebuild (BitVec.ofNat 32 (s.capacity.toNat / 2))
          (s.withDatapath (s.dp.withEvents { s.dp.ev with shrink := true }))
      else goTo .respond s := if_neg h

/-- CHECK of a REMOVE with nothing to clean, and the SHRINK it may start (43_sequencer.md R702). -/
theorem WorksAt.checks_shrink (h : WorksAt .check d t u) (hop : d.op = opRemove)
    (hclean : t.cleanCond = false) (ht : t.Sound) (hm : t.mode ≠ .config) :
    Reaches (rebuildTurns t.capacity.toNat (t.capacity.toNat / 2) + 1) u
      ((shrinkIfLow d.key d.ev t).finish (respondWith d)) := by
  obtain ⟨d', rfl, hfsm, hd⟩ := h.exists_datapath
  have hwidth := t.capacity.isLt
  have hop' : d'.op = opRemove := by rw [hd]; exact hop
  have hkey : d'.key = d.key := by rw [hd]
  have hev : d'.ev = d.ev := by rw [hd]
  have hcheck := (microStep_check (s := t.withDatapath d') hfsm).trans
    (microCheck_remove (by rw [hop']; decide))
  have hclean' : ¬ (t.withDatapath d').cleanCond = true := Bool.eq_false_iff.1 hclean
  rw [if_neg hclean'] at hcheck
  rw [← respondWith_congr hd, ← hkey, ← hev]
  by_cases hshrink : (t.shrinkCond && decide (1 < t.capacity.toNat)) = true
  · have hlt : 1 < t.capacity.toNat := by
      rw [Bool.and_eq_true, decide_eq_true_iff] at hshrink
      exact hshrink.2
    rw [if_pos (show ((t.withDatapath d').shrinkCond && _) = true from hshrink)] at hcheck
    have hfinish : (shrinkIfLow d'.key d'.ev t).finish (respondWith d')
        = (rebuild d'.op d'.key (t.capacity.toNat / 2) t).finish
          fun u _ => respondWith d' u { d'.ev with shrink := true } := by
      rw [shrinkIfLow, if_pos hshrink, hop', shrinkTable]
      cases rebuild opRemove d'.key (t.capacity.toNat / 2) t <;> rfl
    rw [hfinish]
    exact .step hcheck (startRebuild_reaches ht hm (by omega) (by omega) _ d')
  · rw [if_neg (show ¬ ((t.withDatapath d').shrinkCond && _) = true from hshrink)] at hcheck
    rw [shrinkIfLow, if_neg hshrink]
    have hresponds : WorksAt .respond d' t (goTo .respond (t.withDatapath d')) := ⟨rfl, rfl, rfl⟩
    exact (Reaches.step hcheck hresponds.responds).mono (by unfold rebuildTurns; omega)

theorem SameCommand.withEvents (h : SameCommand d d') (ev : Events) :
    SameCommand (d.withEvents ev) (d'.withEvents ev) := by
  unfold SameCommand at *
  rw [h]

/-- After the compaction of a REMOVE the FSM is back in CHECK (43_sequencer.md R702). -/
theorem worksAt_compactDone (h : SameCommand d d') (hctrl : d.ctrl = false) (t : State) :
    WorksAt .check d (compactTable t) (compactDone ((compactTable t).withDatapath d')) := by
  have hctrl' : ¬ d'.ctrl = true := by rw [h]; simp [hctrl]
  have hdone : compactDone ((compactTable t).withDatapath d')
      = (compactTable t).withDatapath { d' with fsm := .check } := if_neg hctrl'
  rw [hdone]
  exact ⟨rfl, rfl, .trans h rfl⟩

theorem cleanCond_compactTable (s : State) : (compactTable s).cleanCond = false := by
  rw [← Bool.not_eq_true, cleanCond_iff]
  simp [compactTable_eq]

/-- CHECK of a REMOVE: a COMPACT, after which CHECK is visited again, or none; then the shrink check
(43_sequencer.md R702). -/
theorem WorksAt.checks_remove (h : WorksAt .check d t u) (hop : d.op = opRemove)
    (hev : d.ev = Events.none) (hctrl : d.ctrl = false) (ht : t.Sound) (hm : t.mode ≠ .config) :
    Reaches (2 * t.capacity.toNat + rebuildTurns t.capacity.toNat (t.capacity.toNat / 2) + 2) u
      ((postRemove d.key t).finish (respondWith d)) := by
  rcases Bool.eq_false_or_eq_true t.cleanCond with hclean | hclean
  case inr =>
    rw [postRemove, hclean, if_neg Bool.false_ne_true, ← hev]
    exact (h.checks_shrink hop hclean ht hm).mono (by omega)
  obtain ⟨d', rfl, hfsm, hd⟩ := h.exists_datapath
  obtain ⟨hcap, -⟩ := tableLegal_capacity (ht.tableLegal hm)
  have hop' : d'.op ≠ opInsert := by rw [hd]; exact hop ▸ (by decide : opRemove ≠ opInsert)
  have hev' : ({ d'.ev with compact := true } : Events) = { Events.none with compact := true } := by
    rw [hd]; exact congrArg (fun e : Events => { e with compact := true }) hev
  obtain ⟨d₁, hd₁, hrun⟩ := compactTable_reaches t (d'.withEvents { d'.ev with compact := true })
  have hstep : microStep (t.withDatapath d')
      = scanAt 0 none (t.withDatapath (d'.withEvents { d'.ev with compact := true })) := by
    refine Eq.trans ?_ (scanAt_lt (i := 0)
      (s := t.withDatapath (d'.withEvents { d'.ev with compact := true })) hcap).symm
    exact (microStep_check hfsm).trans ((microCheck_remove hop').trans (if_pos hclean))
  have hworks := worksAt_compactDone (hd₁.after ((hd.withEvents _).trans (hev' ▸ .refl _)))
    (d := d.withEvents { Events.none with compact := true }) hctrl t
  have hsame : SameButTable t (compactTable t) := sameButTable_compactTable t
  have hrest := hworks.checks_shrink hop (cleanCond_compactTable t) (compactTable_sound ht hm)
    (by rw [hsame.mode_eq]; exact hm)
  rw [compactTable_capacity] at hrest
  rw [postRemove, hclean, if_pos rfl]
  exact (Reaches.step hstep (hrun.trans hrest)).mono (by omega)

/-! ### INSERT and REMOVE -/

theorem finish_respondWith {op : BitVec 2} (hop : op ≠ opReserved) (key : Word64) (p : Nat)
    (s : State) : respondWith ((hashedDatapath op key s).foundAt p)
      = fun t ev => respond (okResponse op key p s t ev) t := by
  funext t ev
  rw [respondWith, datapathResponse_found hop]

theorem insert_reaches (hs : s.Sound) (ha : s.Accepting) (k : Word64) :
    Reaches (s.capacity.toNat + rebuildTurns s.capacity.toNat (2 * s.capacity.toNat) + 3)
      (beginCommand opInsert k s) (runInsert k s) := by
  obtain ⟨hm, -, -, hcap, -⟩ := ha
  have hne : s.mode ≠ .config := by rw [hm]; simp
  have hbegin := microStep_beginCommand (s := s) (show opInsert ≠ opReserved by decide) hcap k
  rcases insertProbe_reaches (d := hashedDatapath opInsert k s) hcap rfl k with
    ⟨p, hfound, u, hrun, hu⟩ | ⟨hnone, hrun⟩
  · have hp : p < 2 ^ 31 := Sound_slot_lt hs hne (probeFree_lt hfound)
    have hcheck := (hu.writes_insert rfl (by omega)).checks_insert rfl rfl
      (insertSlot_sound hs hne hfound k)
      (by rw [(sameButTable_insertSlot p k s).mode_eq]; exact hne)
    rw [slotWrite_capacity, finish_respondWith (by decide)] at hcheck
    rw [runInsert_writes hfound]
    exact (Reaches.step hbegin (hrun.trans (.step rfl hcheck))).mono (by omega)
  · rw [runInsert_full hnone]
    exact (Reaches.step hbegin hrun).mono (by omega)

theorem remove_reaches (hs : s.Sound) (ha : s.Accepting) (k : Word64) :
    Reaches (3 * s.capacity.toNat + rebuildTurns s.capacity.toNat (s.capacity.toNat / 2) + 4)
      (beginCommand opRemove k s) (runRemove k s) := by
  obtain ⟨hm, -, -, hcap, -⟩ := ha
  have hne : s.mode ≠ .config := by rw [hm]; simp
  have hop : opRemove ≠ opReserved := by decide
  have hbegin := microStep_beginCommand (s := s) hop hcap k
  rcases keyProbe_reaches (d := hashedDatapath opRemove k s) hcap
    (show opRemove ≠ opInsert by decide) with ⟨p, hfound, u, hrun, hu⟩ | ⟨hnone, u, hrun, hu⟩
  · have hp : p < 2 ^ 31 := Sound_slot_lt hs hne (probeKey_lt hfound)
    have hcheck := (WorksAt.writes_remove hu (show opRemove ≠ opInsert by decide)
      (by omega)).checks_remove rfl rfl rfl (removeSlot_sound hs hne hfound)
      (by rw [(sameButTable_removeSlot p s).mode_eq]; exact hne)
    rw [slotWrite_capacity, finish_respondWith hop] at hcheck
    rw [runRemove_writes hfound]
    exact (Reaches.step hbegin (hrun.trans (.step rfl hcheck))).mono (by omega)
  · rw [runRemove_absent hnone, ← datapathResponse_notFound hop hnone]
    exact (Reaches.step hbegin (hrun.trans hu.responds)).mono (by unfold rebuildTurns; omega)

/-- The bound of R721 covers an INSERT with its GROW. -/
theorem insertTurns_le {c : Nat} (hc : 1 ≤ c) :
    c + rebuildTurns c (2 * c) + 3 ≤ 3 * c * c + 6 * c + 2 := by
  unfold rebuildTurns
  nlinarith

/-- The bound of R721 covers a REMOVE with its COMPACT and its SHRINK. -/
theorem removeTurns_le {c : Nat} (hc : 1 ≤ c) :
    3 * c + rebuildTurns c (c / 2) + 4 ≤ 3 * c * c + 6 * c + 2 := by
  have hhalf : c / 2 * 2 ≤ c := Nat.div_mul_le_self c 2
  unfold rebuildTurns
  nlinarith

/-- Settles O57: HASH, PROBE, WRITE, CHECK, then the cascade's micro-steps, counted within R721. -/
theorem insertAndRemoveByMicroSteps : Obligations.InsertAndRemoveByMicroSteps := by
  intro k s hs ha c
  obtain ⟨-, -, -, hcap, -⟩ := id ha
  refine ⟨fun t hexec => ?insert, fun t hexec => ?remove⟩
  case insert =>
    cases (exec_insert_accepted ha k).symm.trans hexec
    obtain ⟨hidle, -⟩ := hasEnded_runInsert ha.mode_eq ha.rspPending_eq k
    exact ((insert_reaches hs ha k).mono (insertTurns_le hcap)).microSteps_eq hidle
  case remove =>
    cases (exec_remove_accepted ha k).symm.trans hexec
    obtain ⟨hidle, -⟩ := hasEnded_runRemove ha.mode_eq ha.rspPending_eq k
    exact ((remove_reaches hs ha k).mono (removeTurns_le hcap)).microSteps_eq hidle

end Sys2Proof.Machine
end

section
/-! The statements on the register operations: RD, the configuration and table writes, the CTRL actions,
SLOT_INDEX and the refused writes (44_register_ops.md R801 to R809). -/

namespace Sys2Proof.Machine

variable {s : State} {a : BitVec 8} {d : Word64} {e : Bool}

/-! ### Values of fields -/

theorem toNat_append_eq {n m : Nat} (x : BitVec n) (y : BitVec m) :
    (x ++ y).toNat = x.toNat * 2 ^ m + y.toNat := by
  rw [BitVec.toNat_append, ← Nat.shiftLeft_add_eq_or_of_lt y.isLt, Nat.shiftLeft_eq]

/-- STATUS as a number (10_state.md R122). -/
theorem statusWord_eq (s : State) : s.statusWord
    = BitVec.ofNat 64 (8 * s.rspPending.toNat + 4 * s.tablesComplete.toNat + s.mode.code.toNat) := by
  rw [State.statusWord, ← BitVec.ofNat_toNat, toNat_append_eq, toNat_append_eq,
    BitVec.toNat_ofBool, BitVec.toNat_ofBool]
  congr 1
  omega

/-- FAULT_INFO as a number (10_state.md R123). -/
theorem faultInfoWord_eq (s : State) : s.faultInfoWord
    = BitVec.ofNat 64 (16 * s.faultOp.toNat + s.faultCause.code.toNat) := by
  rw [State.faultInfoWord, ← BitVec.ofNat_toNat, toNat_append_eq]
  congr 1
  omega

/-- CAPS as a number (10_state.md R137). -/
theorem capsWord_eq (h : s.capMax < 2 ^ 32) : s.capsWord
    = BitVec.ofNat 64 (2 ^ 32 * s.lookupEmptyStop.toNat + s.capMax) := by
  rw [State.capsWord, ← BitVec.ofNat_toNat, toNat_append_eq, BitVec.toNat_ofBool,
    BitVec.toNat_ofNat, Nat.mod_eq_of_lt h, Nat.mul_comm]

theorem tablesComplete_iff : s.tablesComplete = true ↔ ∀ n < 2048, s.htw.getLsbD n = true := by
  rw [State.tablesComplete, beq_iff_eq]
  constructor
  · intro h n hn
    rw [h, BitVec.getLsbD_allOnes]
    exact decide_eq_true hn
  · intro h
    apply BitVec.eq_of_getLsbD_eq
    intro n hn
    rw [h n hn, BitVec.getLsbD_allOnes]
    exact (decide_eq_true hn).symm

/-! ### Register reads -/

theorem readIsOutside_eq_false (hcap : s.capacity.toNat ≤ s.capMax) (a : BitVec 8) :
    s.readIsOutside a = false := by
  rw [State.readIsOutside, Bool.and_assoc, Bool.and_eq_false_imp]
  simp only [Bool.and_eq_false_imp, decide_eq_true_eq, decide_eq_false_iff_not]
  omega

theorem readIsFree_eq_false (ha : a ≠ 0x0C) : s.readIsFree a = false := by
  rw [State.readIsFree, beq_false_of_ne ha, Bool.false_and]

/-- A read that meets no free value replies `readRegister` and changes nothing else
(44_register_ops.md R801). -/
theorem readGives_of_readRegister (hb : s.busy = false) (hcap : s.capacity.toNat ≤ s.capMax)
    (hfree : s.readIsFree a = false) (h : s.readRegister a = ⟨d, e⟩) : ReadGives s a d e := by
  intro w
  rw [exec, execRd_idle hb, readIsOutside_eq_false hcap, hfree, h]
  rfl

/-- HT_DATA at an entry whose HTW bit is 1. -/
theorem readRegister_htData (h : s.htWritten s.htIndex = true) :
    s.readRegister 0x0C = ⟨Memory.read 0 s.ht s.htIndex.toNat, false⟩ := by
  change (⟨s.tabRead s.htIndex, false⟩ : Reply) = _
  rw [State.tabRead, if_pos h]

theorem peekedSlot_inside (h : s.slotIndex.toNat < s.capacity.toNat) :
    s.peekedSlot = some (s.slot s.slotIndex.toNat) := if_pos h

theorem peekedSlot_outside (h : s.capacity.toNat ≤ s.slotIndex.toNat) : s.peekedSlot = none :=
  if_neg (Nat.not_lt.2 h)

/-- SLOT_TAG and SLOT_KEY of a slot of the table (10_state.md R135, R136). -/
theorem readRegister_slot_inside {v : Slot} (h : s.peekedSlot = some v) :
    s.readRegister 0x0E = ⟨v.tag.setWidth 64, false⟩ ∧ s.readRegister 0x0F = ⟨v.keyf, false⟩ := by
  simp [State.readRegister, h]

theorem readRegister_slot_outside (h : s.peekedSlot = none) :
    s.readRegister 0x0E = ⟨0, true⟩ ∧ s.readRegister 0x0F = ⟨0, true⟩ := by
  simp [State.readRegister, h]

/-- The reserved indices (10_state.md R138). -/
theorem readRegister_reserved (h : 0x11 ≤ a.toNat) : s.readRegister a = ⟨0, true⟩ := by
  unfold State.readRegister
  split
  case h_18 => rfl
  all_goals omega

/-- Settles O46: each index by the reply `readRegister` has for it. -/
theorem registerReads : Obligations.RegisterReads := by
  intro s hidle hcap modeCode causeCode
  have hb := busy_eq_false_iff.2 hidle
  have hmode : s.mode.code.toNat = modeCode := by
    unfold modeCode
    cases s.mode <;> rfl
  have hcause : s.faultCause.code.toNat = causeCode := by
    unfold causeCode
    cases s.faultCause <;> rfl
  have gives {a d e} (ha : a ≠ 0x0C) (h : s.readRegister a = ⟨d, e⟩) : ReadGives s a d e :=
    readGives_of_readRegister hb hcap (readIsFree_eq_false ha) h
  have givesField {a n} {x : BitVec n} (ha : a ≠ 0x0C)
      (h : s.readRegister a = ⟨x.setWidth 64, false⟩) :
      ReadGives s a (BitVec.ofNat 64 x.toNat) false :=
    gives ha (h.trans (by rw [BitVec.ofNat_toNat]))
  have givesSlot {v : Slot} (h : s.peekedSlot = some v) :
      ReadGives s 0x0E (v.tag.setWidth 64) false ∧ ReadGives s 0x0F v.keyf false :=
    (readRegister_slot_inside h).imp (gives (by decide)) (gives (by decide))
  refine ⟨gives (by decide) rfl, gives (by decide) ?status, gives (by decide) ?faultInfo,
    gives (by decide) rfl, givesField (by decide) rfl, givesField (by decide) rfl,
    givesField (by decide) rfl, gives (by decide) rfl, givesField (by decide) rfl,
    givesField (by decide) rfl, givesField (by decide) rfl, givesField (by decide) rfl,
    fun hwritten => ?htData, givesField (by decide) rfl, fun hin => ?inside, fun hout => ?outside,
    fun hmax => gives (by decide) ?caps, fun a ha => gives ?reserved (readRegister_reserved ha)⟩
  case status => rw [← hmode, ← statusWord_eq]; rfl
  case faultInfo => rw [← hcause, ← faultInfoWord_eq]; rfl
  case htData =>
    exact readGives_of_readRegister hb hcap (by simp [State.readIsFree, State.htWritten, hwritten])
      (readRegister_htData hwritten)
  case inside =>
    have hpeek := peekedSlot_inside hin
    refine ⟨fun hv => ?_, fun k hv => ?_, fun hv => ?_⟩
    all_goals rw [hv] at hpeek; exact givesSlot hpeek
  case outside =>
    exact (readRegister_slot_outside (peekedSlot_outside hout)).imp
      (gives (by decide)) (gives (by decide))
  case caps => rw [← capsWord_eq hmax]; rfl
  case reserved => rintro rfl; exact absurd ha (by decide)

/-! ### Configuration and table writes -/

theorem exec_wrInitCapacity (d : Word64) (s : State) : exec (.wrInitCapacity d) s
    = onConfigWrite s fun s => { s with initCapacity := d.setWidth 32 } := rfl

theorem exec_wrGrowThr (d : Word64) (s : State) : exec (.wrGrowThr d) s
    = onConfigWrite s fun s => { s with growThr := d.setWidth 17 } := rfl

theorem exec_wrShrinkThr (d : Word64) (s : State) : exec (.wrShrinkThr d) s
    = onConfigWrite s fun s => { s with shrinkThr := d.setWidth 17 } := rfl

theorem exec_wrHtIndex (d : Word64) (s : State) : exec (.wrHtIndex d) s
    = onConfigWrite s fun s => { s with htIndex := d.setWidth 11 } := rfl

theorem exec_wrHtData (d : Word64) (s : State) : exec (.wrHtData d) s
    = onConfigWrite s fun s => { s.tabWrite s.htIndex d with htIndex := s.htIndex + 1 } := rfl

/-- The two outcomes of a configuration write at an idle engine, by the mode (44_register_ops.md R802,
R803). -/
theorem exec_configWrite {i : Instr} {run : State → State} (hi : exec i s = onConfigWrite s run)
    (hb : s.busy = false) :
    (s.mode = .config → exec i s = .next ((run s).answer 0 false))
      ∧ (s.mode ≠ .config → IsRefused i s) := by
  rw [IsRefused, hi, onConfigWrite_idle hb]
  exact ⟨fun hm => by rw [if_pos hm], fun hm => by rw [if_neg hm]; rfl⟩

/-- Settles O48: a configuration write stores the low bits in CONFIG mode, is refused in the others. -/
theorem configurationWrites : Obligations.ConfigurationWrites := by
  intro d s hidle
  have hb := busy_eq_false_iff.2 hidle
  obtain ⟨hcap, hcap'⟩ := exec_configWrite (exec_wrInitCapacity d s) hb
  obtain ⟨hgrow, hgrow'⟩ := exec_configWrite (exec_wrGrowThr d s) hb
  obtain ⟨hshrink, hshrink'⟩ := exec_configWrite (exec_wrShrinkThr d s) hb
  obtain ⟨hindex, hindex'⟩ := exec_configWrite (exec_wrHtIndex d s) hb
  have low {n : Nat} (hn : n ≤ 64) : d.extractLsb' 0 n = d.setWidth n :=
    (BitVec.setWidth_eq_extractLsb' hn).symm
  rw [low (by decide), low (by decide), low (by decide)]
  exact ⟨fun hm => ⟨hcap hm, hgrow hm, hshrink hm, hindex hm⟩,
    fun hm => ⟨hcap' hm, hgrow' hm, hshrink' hm, hindex' hm⟩⟩

/-- A table write sets the HTW bit of its entry and keeps the others (44_register_ops.md R803). -/
theorem getLsbD_htw_tabWrite (s : State) (i : TableIndex) (d : Word64) (n : Nat) :
    (s.tabWrite i d).htw.getLsbD n = (s.htw.getLsbD n || decide (i.toNat = n)) := by
  rw [tabWrite_htw, BitVec.getLsbD_or, BitVec.getLsbD_twoPow, decide_eq_true i.isLt, Bool.true_and]

theorem tablesComplete_tabWrite_iff (s : State) (i : TableIndex) (d : Word64) :
    (s.tabWrite i d).tablesComplete = true
      ↔ ∀ n < 2048, n ≠ i.toNat → s.htw.getLsbD n = true := by
  rw [tablesComplete_iff]
  refine forall₂_congr fun n _ => ?_
  rw [getLsbD_htw_tabWrite, Bool.or_eq_true, decide_eq_true_eq, ne_comm, or_comm, ne_eq,
    or_iff_not_imp_left]

/-- Settles O49: a table write of the entry at HT_INDEX, and HT_INDEX one on. -/
theorem tableEntryWrite : Obligations.TableEntryWrite := by
  intro d s hidle
  have hb := busy_eq_false_iff.2 hidle
  obtain ⟨hwrites, hrefused⟩ := exec_configWrite (exec_wrHtData d s) hb
  refine ⟨fun hm hs => ⟨_, hwrites hm, rfl, ?index, ?entry, ?others, ?bit, ?bits,
    tablesComplete_tabWrite_iff s s.htIndex d⟩, hrefused⟩
  case index => exact BitVec.toNat_add s.htIndex 1
  case entry =>
    obtain ⟨⟨hsorted, -⟩, -⟩ := hs
    exact Memory.read_write_same hsorted
  case others => exact fun n hn => Memory.read_write_other hn.symm
  case bit => exact (getLsbD_htw_tabWrite s s.htIndex d _).trans (by simp)
  case bits => exact fun n hn => (getLsbD_htw_tabWrite s s.htIndex d n).trans (by simp [hn.symm])

/-! ### CTRL writes -/

theorem decode_ctrlWrite (d : Word64) :
    decode (.reg (0b1#1 ++ 0x00#8 ++ d)) = decodeCtrl d := decodeReg_regWord true 0 d

theorem exec_wrCtrl (hb : s.busy = false) (d : Word64) :
    exec (.wrCtrl d) s = .next (if d = 0 then s.answer 0 false else s.refuse) := by
  rw [exec, execWrCtrl, onRegisterPort_idle hb]

/-- Settles O50: the word is a CTRL write, which is decoded by its data. -/
theorem ctrlWriteDecode : Obligations.CtrlWriteDecode := by
  intro d
  rw [decode_ctrlWrite]
  refine ⟨?start, ?softReset, ?compactNow,
    fun hstart hreset hcompact => ⟨?other, fun s hidle => ?noAction⟩⟩
  case start => rintro rfl; rfl
  case softReset => rintro rfl; rfl
  case compactNow => rintro rfl; rfl
  case other => rw [decodeCtrl, if_neg hstart, if_neg hreset, if_neg hcompact]
  case noAction =>
    rw [IsRefused, exec_wrCtrl (busy_eq_false_iff.2 hidle)]
    exact ⟨fun h => by rw [if_pos h]; rfl, fun h => by rw [if_neg h]; rfl⟩

/-! ### CTRL actions -/

theorem exec_start_refused (hb : s.busy = false) (h : ¬ s.startLegal = true) :
    IsRefused .start s := by
  rw [IsRefused, exec, execStart, onRegisterPort_idle hb, if_neg h]
  rfl

theorem exec_softReset (hb : s.busy = false) :
    exec .softReset s = .next ((softReset s).answer 0 false) := by
  rw [exec, execSoftReset, onRegisterPort_idle hb]

theorem exec_compactNow_refused (hb : s.busy = false) (hm : s.mode ≠ .run) :
    IsRefused .compactNow s := by
  rw [IsRefused, exec, execCompactNow, onRegisterPort_idle hb, if_neg hm]
  rfl

/-- Bank 0 after START: Empty below INIT_CAPACITY, from there on as before (44_register_ops.md R805). -/
theorem slotRead_startTable (s : State) (i : Nat) : (startTable s).slotRead 0 i
    = if i < s.initCapacity.toNat then .empty else s.slotRead 0 i :=
  Memory.read_clearBelow

/-- Settles O51: START under its five conditions clears the slots of the new table in bank 0. -/
theorem startBuildsAnEmptyTable : Obligations.StartBuildsAnEmptyTable := by
  intro s hidle legal
  have hb := busy_eq_false_iff.2 hidle
  have hlegal : s.startLegal = true ↔ legal := by
    rw [startLegal_iff, State.startedLegal]
    tauto
  refine ⟨fun h => ⟨_, exec_start hb (hlegal.2 h), rfl, fun i hi => ?cleared, fun i hi => ?kept⟩,
    fun h => exec_start_refused hb (mt hlegal.1 h)⟩
  case cleared => exact (slotRead_startTable s i).trans (if_pos hi)
  case kept => exact (slotRead_startTable s i).trans (if_neg (Nat.not_lt.2 hi))

/-- Settles O52: `softReset` names the elements it sets and keeps the others. -/
theorem softResetLeavesConfig : Obligations.SoftResetLeavesConfig := fun _ hidle =>
  ⟨_, exec_softReset (busy_eq_false_iff.2 hidle), rfl⟩

/-- Settles O53: COMPACT changes the table and its counters, COMPACT_NOW the reply too. -/
theorem compactNowCompacts : Obligations.CompactNowCompacts := by
  intro s hidle
  have hb := busy_eq_false_iff.2 hidle
  refine ⟨fun hm hone hmax => ?_, exec_compactNow_refused hb⟩
  have hc := capacityInRange_intro hone hmax
  have hframe := sameButTable_compactTable s
  exact ⟨compactTable s, exec_compact hc, hframe.sameResponse.2, hframe.rspPending_eq,
    hframe.mode_eq, exec_compactNow hb hm hc⟩

/-! ### SLOT_INDEX and refused writes -/

theorem exec_wrSlotIndex (hb : s.busy = false) (d : Word64) :
    exec (.wrSlotIndex d) s = .next ({ s with slotIndex := d.setWidth 32 }.answer 0 false) := by
  rw [exec, execWrSlotIndex, onRegisterPort_idle hb]

/-- Settles O54: neither write looks at the mode, and a refused one looks at no operand. -/
theorem slotIndexAndRefusedWrites : Obligations.SlotIndexAndRefusedWrites := by
  intro d s hidle
  have hb := busy_eq_false_iff.2 hidle
  have hrefused := onRefusedWrite_idle hb
  refine ⟨?_, hrefused, fun _ => hrefused, hrefused, fun _ => hrefused, hrefused, fun _ => hrefused,
    fun _ => hrefused, fun _ => hrefused, fun _ => hrefused, fun _ => hrefused⟩
  rw [← BitVec.setWidth_eq_extractLsb' (by decide)]
  exact exec_wrSlotIndex hb d

end Sys2Proof.Machine
end

section
/-! The statements on what is locked outside CONFIG mode (60_exceptions.md R911, 10_state.md R106) and on
FAULT mode (60_exceptions.md R906). -/

namespace Sys2Proof.Machine

variable {s t u : State}

/-! ### Register transactions outside CONFIG mode -/

/-- `t` is `s` but for SLOT_INDEX, the register reply and the count of free values. -/
def SameButReply (s t : State) : Prop :=
  t = { s with slotIndex := t.slotIndex, reply := t.reply, freeCtr := t.freeCtr }

theorem SameButReply.trans (h : SameButReply s t) (h' : SameButReply t u) : SameButReply s u := by
  unfold SameButReply at *
  rw [h', h]

theorem SameButReply.handOver (h : SameButReply s t) : SameButReply (handOver s) (handOver t) := by
  unfold SameButReply at *
  rw [h]
  rfl

/-- What a register transaction at an idle engine can do outside CONFIG mode: write SLOT_INDEX or only
its reply, SOFT_RESET, or COMPACT_NOW in RUN mode. -/
inductive LockedEffect (i : Instr) (s : State) : State → Prop
  | replies (t : State) (h : SameButReply s t) : LockedEffect i s t
  | softReset (hi : i = .softReset) : LockedEffect i s ((softReset s).answer 0 false)
  | compactNow (hm : s.mode = .run) : LockedEffect i s ((compactTable s).answer 0 false)

theorem LockedEffect.of_refused {i : Instr} (hr : IsRefused i s) (h : exec i s = .next t) :
    LockedEffect i s t := by
  cases hr.symm.trans h
  exact .replies _ rfl

/-- A check that stops the model was passed where there is a next state. -/
theorem next_of_check {p : Prop} [Decidable p] {r : Answer} {e : Fault}
    (h : (if p then r else .fault e) = .next t) : r = .next t := by
  split at h
  · exact h
  · cases h

theorem execRd_locked {a : BitVec 8} {w : Word64} (hb : s.busy = false)
    (h : exec (.rd a w) s = .next t) : SameButReply s t := by
  rw [exec, execRd_idle hb] at h
  split at h
  · cases h
  · cases h; rfl

theorem onConfigWrite_locked {run : State → State} (hb : s.busy = false) (hm : s.mode ≠ .config)
    (h : onConfigWrite s run = .next t) : SameButReply s t := by
  rw [onConfigWrite_idle hb, if_neg hm] at h
  cases h
  rfl

theorem execWrCtrl_locked {d : Word64} (hb : s.busy = false) (h : exec (.wrCtrl d) s = .next t) :
    SameButReply s t := by
  rw [exec_wrCtrl hb] at h
  cases h
  split
  · rfl
  · rfl

theorem execCompactNow_locked (hb : s.busy = false) (h : exec .compactNow s = .next t) :
    LockedEffect .compactNow s t := by
  by_cases hm : s.mode = .run
  · rw [exec, execCompactNow, onRegisterPort_idle hb, if_pos hm] at h
    cases next_of_check h
    exact .compactNow hm
  · exact .of_refused (exec_compactNow_refused hb hm) h

/-- Every row of the register port has one of these effects; the configuration writes and START are
refused (44_register_ops.md R802, R803, R805). -/
theorem exec_register_locked {i : Instr} (hi : isRegisterRow i = true) (hb : s.busy = false)
    (hm : s.mode ≠ .config) (h : exec i s = .next t) : LockedEffect i s t := by
  cases i with
  | insert _ | lookup _ | remove _ | cmdReserved _ | hash _ | probeFree _ _ _ | probeKey _ _ _
  | grow | shrink | rebuild _ | compact => cases hi
  | rd _ _ => exact .replies _ (execRd_locked hb h)
  | wrInitCapacity _ | wrGrowThr _ | wrShrinkThr _ | wrHtIndex _ | wrHtData _ =>
    simp only [exec, execWrInitCapacity, execWrGrowThr, execWrShrinkThr, execWrHtIndex,
      execWrHtData] at h
    exact .replies _ (onConfigWrite_locked hb hm h)
  | wrCtrl _ => exact .replies _ (execWrCtrl_locked hb h)
  | start => exact .of_refused (exec_start_refused hb fun hl => hm (startLegal_iff.1 hl).1) h
  | softReset =>
    rw [exec_softReset hb] at h
    cases h
    exact .softReset rfl
  | compactNow => exact execCompactNow_locked hb h
  | wrSlotIndex d =>
    rw [exec_wrSlotIndex hb] at h
    cases h
    exact .replies _ rfl
  | wrRefused01 _ | wrRefused02 _ _ | wrRefused07 _ | wrRefused08 _ _ | wrRefused0A _
  | wrRefused0E _ _ | wrRefused10 _ _ | wrRefused20 _ _ | wrRefused40 _ _ | wrRefused80 _ _ =>
    exact .of_refused (onRefusedWrite_idle hb) h

/-! ### Tables and configuration -/

/-- The build parameters and what the host drives are the same in both states, and HT, HTW and the
configuration too when the first is outside CONFIG mode (10_state.md R106, 60_exceptions.md R911). -/
def KeepsLocked (s t : State) : Prop :=
  t.capMax = s.capMax ∧ t.lookupEmptyStop = s.lookupEmptyStop ∧ t.inputs = s.inputs
    ∧ (s.mode ≠ .config → t.ht = s.ht ∧ t.htw = s.htw ∧ t.initCapacity = s.initCapacity
        ∧ t.growThr = s.growThr ∧ t.shrinkThr = s.shrinkThr)

theorem KeepsLocked.refl (s : State) : KeepsLocked s s :=
  ⟨rfl, rfl, rfl, fun _ => ⟨rfl, rfl, rfl, rfl, rfl⟩⟩

theorem SameButTable.keepsLocked (h : SameButTable s t) : KeepsLocked s t := by
  rw [h]; exact .refl s

theorem SameButReply.keepsLocked (h : SameButReply s t) : KeepsLocked s t := by
  rw [h]; exact .refl s

theorem LockedEffect.keepsLocked {i : Instr} (h : LockedEffect i s t) : KeepsLocked s t := by
  cases h with
  | replies _ h => exact h.keepsLocked
  | softReset _ => exact .refl s
  | compactNow _ => exact (sameButTable_compactTable s).keepsLocked

/-- In CONFIG mode only the build parameters and the host's samples are kept. -/
theorem RegisterEffect.keepsLocked {i : Instr} (hm : s.mode = .config) (h : RegisterEffect i s t) :
    KeepsLocked s t := by
  cases h with
  | update _ h =>
    obtain ⟨he, -⟩ := h
    rw [he]
    exact ⟨rfl, rfl, rfl, fun hne => absurd hm hne⟩
  | start _ _ | softReset _ => exact .refl s
  | compactNow hrun => cases hm.symm.trans hrun

theorem exec_register_keepsLocked {i : Instr} (hi : isRegisterRow i = true)
    (h : exec i s = .next t) : KeepsLocked s t := by
  cases hb : s.busy with
  | true =>
    cases (exec_register_busy hi hb).symm.trans h
    exact .refl s
  | false =>
    by_cases hm : s.mode = .config
    · exact (exec_register_effect hi hb h).keepsLocked hm
    · exact (exec_register_locked hi hb hm h).keepsLocked

/-- The fault record lies outside what is locked. -/
theorem SequenceEnds.keepsLocked {op : BitVec 2} {key : Word64} {r : Ran}
    (h : SequenceEnds op key s r) : KeepsLocked s r.state := by
  cases h with
  | done _ _ ht => exact ht.keepsLocked
  | raised _ _ ht _ => exact ht.keepsLocked

theorem CommandEnds.keepsLocked {op : BitVec 2} {key : Word64} (h : CommandEnds op key s t) :
    KeepsLocked s t := by
  cases h with
  | responds _ _ ht => exact ht.keepsLocked
  | faults _ _ ht => exact ht.keepsLocked

theorem onCommandPort_keepsLocked {run : State → State} (hrun : KeepsLocked s (run s))
    (h : onCommandPort s run = .next t) : KeepsLocked s t := by
  obtain rfl | ⟨-, rfl⟩ := onCommandPort_next h
  · exact .refl t
  · exact hrun

theorem checked_keepsLocked {p : Prop} [Decidable p] {e : Fault} (hu : KeepsLocked s u)
    (h : (if p then .next u else .fault e : Answer) = .next t) : KeepsLocked s t := by
  cases next_of_check h
  exact hu

theorem latchProbe_keepsLocked (r : ProbeResult) (s : State) : KeepsLocked s (latchProbe r s) :=
  .refl s

/-- SHRINK at CAPACITY = 1 does nothing (93_implementation_defined.md I1). -/
theorem execShrink_keepsLocked (h : execShrink s = .next t) : KeepsLocked s t := by
  refine checked_keepsLocked ?_ h
  split
  · exact (rebuild_ends _ _ _ s).keepsLocked
  · exact .refl s

/-- Settles O7: commands and internal operations work on the table, the fault record, the response and
the datapath; of the register transactions, those that write the configuration are refused. -/
theorem tablesAndConfigurationAreLocked : Obligations.TablesAndConfigurationAreLocked := by
  intro i s t h
  change KeepsLocked s t
  cases i with
  | insert key => exact onCommandPort_keepsLocked (runInsert_ends key s).keepsLocked h
  | remove key => exact onCommandPort_keepsLocked (runRemove_ends key s).keepsLocked h
  | lookup _ | cmdReserved _ => exact onCommandPort_keepsLocked (.refl s) h
  | hash _ => cases h; exact .refl s
  | probeFree _ _ _ | probeKey _ _ _ => exact checked_keepsLocked (latchProbe_keepsLocked _ s) h
  | grow => exact checked_keepsLocked (growTable_ends _ _ s).keepsLocked h
  | shrink => exact execShrink_keepsLocked h
  | rebuild _ => exact checked_keepsLocked (rebuild_ends _ _ _ s).keepsLocked (next_of_check h)
  | compact => exact checked_keepsLocked (sameButTable_compactTable s).keepsLocked h
  | rd _ _ | wrInitCapacity _ | wrGrowThr _ | wrShrinkThr _ | wrHtIndex _ | wrHtData _ | wrCtrl _
  | start | softReset | compactNow | wrSlotIndex _ | wrRefused01 _ | wrRefused02 _ _
  | wrRefused07 _ | wrRefused08 _ _ | wrRefused0A _ | wrRefused0E _ _ | wrRefused10 _ _
  | wrRefused20 _ _ | wrRefused40 _ _ | wrRefused80 _ _ => exact exec_register_keepsLocked rfl h

/-! ### FAULT mode -/

/-- In FAULT mode a register transaction but SOFT_RESET writes SLOT_INDEX or only its reply. -/
theorem exec_register_fault {w : RegWord} (hm : s.mode = .fault) (hb : s.busy = false)
    (hsoft : decodeReg w ≠ .softReset) (h : exec (decodeReg w) s = .next t) : SameButReply s t := by
  have hconfig : s.mode ≠ .config := by simp [hm]
  cases exec_register_locked (decodeReg_isRegisterRow w) hb hconfig h with
  | replies _ h => exact h
  | softReset hi => exact absurd hi hsoft
  | compactNow hrun => cases hm.symm.trans hrun

/-- A command word waits in FAULT mode (30_encoding.md R302). -/
theorem exec_command_fault {w : CmdWord} (hm : s.mode = .fault)
    (h : exec (decodeCmd w) s = .next t) : t = s := by
  cases exec_command_effect h with
  | waits => rfl
  | insert _ _ hrun _ | lookup _ hrun | remove _ _ hrun _ | reserved _ hrun =>
    cases hm.symm.trans hrun

/-- An edge in FAULT mode at which the response transfers, with a register transaction before or after
it (log entry 9). -/
theorem step_fault_transfers (hm : s.mode = .fault) (hb : s.busy = false) (hrst : s.pins.rst = false)
    (hsoft : ∀ w, s.pins.reg = some w → decodeReg w ≠ .softReset) (htr : s.transfersResponse = true)
    (h : step s = .next t) : SameButReply (handOver s.advance) t := by
  have hcount : SameButReply s.advance s.advance.nextFree := rfl
  cases hreg : s.pins.reg with
  | none =>
    cases (step_handOver hrst hb hreg htr).symm.trans h
    rfl
  | some w =>
    rcases step_register_handOver hrst hb hreg htr with e | e
    · exact hcount.handOver.trans
        (exec_register_fault (s := handOver s.advance.nextFree) hm hb (hsoft w hreg) (e.symm.trans h))
    · obtain ⟨v, hv, rfl⟩ := andThen_next (e.symm.trans h)
      have hexec := exec_register_fault (s := s.advance.nextFree) hm hb (hsoft w hreg) hv
      exact (hcount.trans hexec).handOver

/-- An edge in FAULT mode at which no response transfers. -/
theorem step_fault_keeps (hm : s.mode = .fault) (hb : s.busy = false) (hrst : s.pins.rst = false)
    (hsoft : ∀ w, s.pins.reg = some w → decodeReg w ≠ .softReset)
    (htr : s.transfersResponse = false) (h : step s = .next t) : SameButReply s.advance t := by
  cases hreg : s.pins.reg with
  | some w =>
    rw [step_register hrst hb hreg htr] at h
    exact exec_register_fault (s := s.advance) hm hb (hsoft w hreg) h
  | none =>
    cases hcmd : s.pins.cmd with
    | some w =>
      rw [step_command hrst hb hreg htr hcmd] at h
      cases exec_command_fault (s := s.advance) hm h
      rfl
    | none =>
      cases (step_nothing hrst hb hreg htr hcmd).symm.trans h
      rfl

/-- Both kinds of edge: the response port, the passing of the edge, at most a reply. -/
theorem step_fault (hm : s.mode = .fault) (hb : s.busy = false) (hrst : s.pins.rst = false)
    (hsoft : ∀ w, s.pins.reg = some w → decodeReg w ≠ .softReset) (h : step s = .next t) :
    SameButReply (takeResponse s).advance t := by
  unfold takeResponse
  split
  next htr => exact step_fault_transfers hm hb hrst hsoft htr h
  next htr => exact step_fault_keeps hm hb hrst hsoft (Bool.eq_false_of_not_eq_true htr) h

theorem cmdReady_of_fault (hm : s.mode = .fault) : s.outputs.cmdReady = false := by
  have hwaits : s.acceptsCommand = false := acceptsCommand_eq_false_iff.2 (.inl (by simp [hm]))
  simp [State.outputs, hwaits]

/-- Settles O9: in FAULT mode commands wait and the register port only replies, so FAULT mode stays and
cmd_ready with it. -/
theorem faultModeIsLeftOnlyByReset : Obligations.FaultModeIsLeftOnlyByReset := by
  intro s t hm hidle hrst hsoft h
  have hframe := step_fault hm (busy_eq_false_iff.2 hidle) hrst hsoft h
  rw [takeResponse_advance] at hframe
  have hmode : t.mode = .fault := by rw [hframe]; exact hm
  exact ⟨cmdReady_of_fault hm, cmdReady_of_fault hmode, hframe⟩

end Sys2Proof.Machine
end

section
/-! The statements on rst and on a REMOVE with SHRINK_THR at most one half (70_reset_and_hazards.md R1000,
R1005). -/

namespace Sys2Proof.Machine

variable {s : State}

/-! ### rst -/

/-- With no HTW bit set TABLES_COMPLETE is 0 (10_state.md R107). -/
theorem tablesComplete_of_htw_zero (h : s.htw = 0) : s.tablesComplete = false := by
  refine Bool.eq_false_of_not_eq_true fun hall => ?_
  have hwritten := htWritten_of_tablesComplete hall 0
  simp [State.htWritten, h] at hwritten

/-- After rst every handshake output is low and rsp_data shows the unspecified record
(70_reset_and_hazards.md R1000): the outputs are read off MODE, RSP_PENDING, the reply and the FSM. -/
theorem outputs_hardwareReset (s : State) : (hardwareReset s).outputs
    = { cmdReady := false, rspValid := false, rspData := (Config.unspecifiedRsp s.freeCtr).pack,
        regReply := none, busy := false, fault := false } := rfl

/-- Settles O2: whatever else is driven the edge is `hardwareReset`, which names the elements it sets. -/
theorem rstSetsEveryElement : Obligations.RstSetsEveryElement := by
  intro s hrst
  have htables : (hardwareReset s.advance).tablesComplete = false := tablesComplete_of_htw_zero rfl
  refine ⟨_, step_reset hrst, rfl, rfl, rfl, rfl, rfl, rfl, rfl, rfl, htables, rfl, rfl, rfl, rfl,
    rfl, rfl, rfl, rfl, ?_⟩
  rw [outputs_hardwareReset]
  exact ⟨rfl, rfl, rfl, rfl, rfl, rfl, rfl, rfl⟩

/-! ### The shrink of a REMOVE -/

/-- With SHRINK_THR at most one half, a table that calls for a shrink has at most half its slots
Occupied (43_sequencer.md R700). -/
theorem occupied_le_half_of_shrinkCond (htab : s.tableLegal) (hthr : s.shrinkThr.toNat ≤ 32768)
    (h : s.shrinkCond = true) :
    countSlots Slot.isOccupied s.table s.capacity.toNat ≤ s.capacity.toNat / 2 := by
  have hlow : s.filled.toNat * 65536 < s.shrinkThr.toNat * s.capacity.toNat := of_decide_eq_true h
  have hhalf := Nat.mul_le_mul_right s.capacity.toNat hthr
  rw [← tableLegal_filled htab]
  omega

/-- So its keys have room at half the capacity, and the shrink check raises nothing. -/
theorem shrinkIfLow_done (hs : s.storageLegal) (htab : s.tableLegal)
    (hthr : s.shrinkThr.toNat ≤ 32768) (key : Word64) (ev : Events) :
    ∃ t ev', shrinkIfLow key ev s = .done t ev' := by
  rcases shrinkIfLow_cases key ev s with ⟨-, h⟩ | ⟨-, -, t, e, -, h⟩ | ⟨hlow, -, t, hraised, -⟩
  · exact ⟨_, _, h⟩
  · exact ⟨_, _, h⟩
  · have hroom := occupied_le_half_of_shrinkCond htab hthr hlow
    cases (rebuild_of_room hs opRemove key hroom).symm.trans hraised

theorem compactIfDirty_sound (hs : s.Sound) (hm : s.mode ≠ .config) : (compactIfDirty s).Sound := by
  unfold compactIfDirty
  split
  · exact compactTable_sound hs hm
  · exact hs

/-- The compaction before the shrink check changes neither MODE, SHRINK_THR nor soundness, so the cascade
raises nothing either (43_sequencer.md R702). -/
theorem postRemove_done (hs : s.Sound) (hm : s.mode ≠ .config) (hthr : s.shrinkThr.toNat ≤ 32768)
    (key : Word64) : ∃ t ev, postRemove key s = .done t ev := by
  have hcompact := compactIfDirty_sound hs hm
  have hframe := compactIfDirty_frame s
  have hmode : (compactIfDirty s).mode = s.mode := by rw [hframe]
  have hthr' : (compactIfDirty s).shrinkThr = s.shrinkThr := by rw [hframe]
  rw [postRemove_eq]
  exact shrinkIfLow_done hcompact.storageLegal (hcompact.tableLegal (by rwa [hmode]))
    (by rwa [hthr']) key _

/-- A command whose sequence is done has answered, in the mode it ran in. -/
theorem finish_mode_of_done {op : BitVec 2} {key : Word64} {r : Ran}
    (hends : SequenceEnds op key s r) (hdone : ∃ t ev, r = .done t ev)
    (f : State → Events → Response) :
    (r.finish fun t ev => respond (f t ev) t).mode = s.mode := by
  obtain ⟨t, ev, rfl⟩ := hdone
  cases hends with
  | done _ _ ht => exact ht.mode_eq

/-- A REMOVE with SHRINK_THR at most one half answers. -/
theorem runRemove_mode (hs : s.Sound) (hm : s.mode = .run) (hthr : s.shrinkThr.toNat ≤ 32768)
    (key : Word64) : (runRemove key s).mode = .run := by
  have hne : s.mode ≠ .config := by rw [hm]; simp
  cases h : s.keySlot key with
  | none => rw [runRemove_absent h]; exact hm
  | some p =>
    have hsame := sameButTable_removeSlot p s
    have hthr' : (removeSlot p s).shrinkThr = s.shrinkThr := by rw [hsame]
    have hdone := postRemove_done (removeSlot_sound hs hne h) (by rwa [hsame.mode_eq])
      (by rwa [hthr']) key
    rw [runRemove_writes h]
    exact (finish_mode_of_done ((postRemove_ends key _).of_sameButTable hsame) hdone _).trans hm

/-- Settles O35: a shrink is called for at less than half the capacity, where every key has room. -/
theorem noShrinkFaultUpToHalf : Obligations.NoShrinkFaultUpToHalf := by
  intro k s t hs ha hthr hexec
  cases (exec_remove_accepted ha k).symm.trans hexec
  exact runRemove_mode hs ha.mode_eq hthr k

end Sys2Proof.Machine
end
